-- ==== Sys2Proof/Word.lean ====
section
/-!
DEFINITION. The machine word, register numbers and register names of the LDS-2
(spec rules R8, R9, R30). Bit 0 of the manual is the high-order bit.
-/

namespace Sys2Proof

/-- One 24-bit word of memory or of a register (R8, R100). -/
abbrev Word := BitVec 24

/-- One byte of the model's memory cells. The machine has no bytes (R112): three of them make
a word, and nothing in the machine can see how. -/
abbrev Byte := BitVec 8

/-- The number of a Channel Control register, 0 to 017 (R30). -/
abbrev Reg := Fin 16

/-- The address of a pipeline register, 0 to 017 (R424). -/
abbrev DevAddr := Fin 16

/-- A shift count or bit number, the 5-bit field b (R143, R148). -/
abbrev BitCount := Fin 32

namespace Reg

/-- Accumulator 0 (R30). -/
abbrev ac0 : Reg := 0
/-- Accumulator 1 (R30). -/
abbrev ac1 : Reg := 1
/-- Accumulator 2 (R30). -/
abbrev ac2 : Reg := 2
/-- Accumulator 3 (R30). -/
abbrev ac3 : Reg := 3
/-- Top of the return stack (R30, R32). -/
abbrev tos : Reg := 4
/-- Stack pointer of the return stack (R30, R32). -/
abbrev sp : Reg := 5
/-- Data sink pointer (R30, R33). -/
abbrev dsp : Reg := 6
/-- Index register (R30, R34). -/
abbrev ir : Reg := 7
/-- X of the current point (R30, R35). -/
abbrev x : Reg := 8
/-- Y of the current point (R30, R35). -/
abbrev y : Reg := 9
/-- Z of the current point (R30, R35). -/
abbrev z : Reg := 10
/-- W of the current point (R30, R35). -/
abbrev w : Reg := 11
/-- Read pointer (R30, R36). -/
abbrev rp : Reg := 12
/-- Read counter (R30, R37). -/
abbrev rc : Reg := 13
/-- Write pointer (R30, R38). -/
abbrev wp : Reg := 14
/-- Write counter (R30, R38). -/
abbrev wc : Reg := 15

end Reg

end Sys2Proof
end

