-- ==== Sys2Proof/Machine/Bits.lean ====
section
/-!
DEFINITION. Bits, fields and signed values of words, in the manual's numbering: bit 0 is the high-order bit (R9, R11).
-/

namespace Sys2Proof

/-- Bit `i` of a word in the manual's numbering, `w[i]` of R9. There is no bit 24 or above: it reads 0. -/
def bitAt (w : Word) (i : Nat) : Bool := w.getMsbD i

/-- The word with a 1 in bit `i` only, of numeric weight 2^(23-i) (R9); the zero word for a bit number above 23. -/
def bitMask (i : Nat) : Word := if i < 24 then 1#24 <<< (23 - i) else 0#24

/-- The word with bit `i` replaced (R9). -/
def setBitAt (w : Word) (i : Nat) (b : Bool) : Word :=
  if b then w ||| bitMask i else w &&& ~~~(bitMask i)

/-- The word with 1 in bits `i` to `j` and 0 elsewhere. -/
def fieldMask (i j : Nat) : Word := (BitVec.allOnes 24 >>> i) &&& (BitVec.allOnes 24 <<< (23 - j))

/-- The field `w[i:j]` of R9 as a number. -/
def fieldAt (w : Word) (i j : Nat) : Nat := (w.toNat / 2 ^ (23 - j)) % 2 ^ (j + 1 - i)

/-- The word with the field `w[i:j]` replaced by the low bits of `v`. -/
def setFieldAt (w : Word) (i j : Nat) (v : Nat) : Word :=
  (w &&& ~~~(fieldMask i j)) ||| ((BitVec.ofNat 24 v <<< (23 - j)) &&& fieldMask i j)

/-- A register number from its 4-bit field (R149). -/
def toReg (v : BitVec 4) : Reg := ⟨v.toNat, v.isLt⟩

/-- The 4-bit field of a register number or device address (R149, R424). -/
def ofReg (r : Reg) : BitVec 4 := BitVec.ofNat 4 r.val

/-- A bit count from its 5-bit field (R148). -/
def toCount (v : BitVec 5) : BitCount := ⟨v.toNat, v.isLt⟩

/-- The 5-bit field of a bit count (R148). -/
def ofCount (b : BitCount) : BitVec 5 := BitVec.ofNat 5 b.val

/-- The immediate N extended with zeros to a word (R148). -/
def zext (n : BitVec 12) : Word := n.setWidth 24

end Sys2Proof
end

