-- ==== Sys2Proof/Syntax.lean ====
section
/-!
DEFINITION. The instructions of the LDS-2: one constructor for each of the 180 rows of
spec/opcode_table.json, named as its mnemonic in lower case (R151 to R159, R165).
-/

namespace Sys2Proof

/-- The X field of the register transfers and register draws (R149, R425). -/
inductive XSel
  | sac0 | sx | sac2 | sz | dac0 | dx
deriving DecidableEq, Repr

/-- The thirteen manner codes of a single draw (R494). -/
inductive Manner
  | seta | setr | setv | toa | tor | tov | dota | dotr | dotv | boxa | boxr | frma | frmr
deriving DecidableEq, Repr

/-- The states of the drawing-operation machine FSM1 (R154, R496). `box` is also NEWCRV, `poly` also SET. -/
inductive Fsm1
  | box | dot | drawTo | poly | star | drawFrom | line | nline
deriving DecidableEq, Repr

/-- The states of the data-form machine FSM2 (R154, R497). -/
inductive Fsm2
  | av | vv | aa | ra | ar | rr | ax | rx
deriving DecidableEq, Repr

/-- One instruction. Operand names: `i` the indirect flag @, `x` the index flag % or the X field, `r`, `r1`, `r2`
register fields, `n` the immediate N, `b` the bit count, `da` the device address, `dev` the device code,
`f1`, `f2` the starting states of FSM1 and FSM2, `man` the manner, `addr` the in-page address (R143). -/
inductive Instr
  /-- LO, R200. -/
  | lo (i : Bool) (r : Reg) (addr : BitVec 16)
  /-- ST, R201. -/
  | st (i : Bool) (r : Reg) (addr : BitVec 16)
  /-- J, R222. -/
  | j (i x : Bool) (addr : BitVec 16)
  /-- PUSHJ, R223. -/
  | pushj (i x : Bool) (addr : BitVec 16)
  /-- XEQ, R230. -/
  | xeq (i x : Bool) (addr : BitVec 16)
  /-- ADD, R274. -/
  | add (r1 r2 : Reg)
  /-- ADDNC, R275. -/
  | addnc (r1 r2 : Reg)
  /-- SUB, R276. -/
  | sub (r1 r2 : Reg)
  /-- SUBNB, R277. -/
  | subnb (r1 r2 : Reg)
  /-- RLO, R202. -/
  | rlo (r1 r2 : Reg)
  /-- RLOZ, R203. -/
  | rloz (r1 r2 : Reg)
  /-- XOR, R284. -/
  | xor (r1 r2 : Reg)
  /-- XORZ, R285. -/
  | xorz (r1 r2 : Reg)
  /-- AND, R287. -/
  | and (r1 r2 : Reg)
  /-- ANDZ, R288. -/
  | andz (r1 r2 : Reg)
  /-- OR, R282. -/
  | or (r1 r2 : Reg)
  /-- ORZ, R283. -/
  | orz (r1 r2 : Reg)
  /-- XORNZ, R286. -/
  | xornz (r1 r2 : Reg)
  /-- ANDNZ, R289. -/
  | andnz (r1 r2 : Reg)
  /-- ADDI, R278. -/
  | addi (r : Reg) (n : BitVec 12)
  /-- ADDINC, R279. -/
  | addinc (r : Reg) (n : BitVec 12)
  /-- SUBI, R280. -/
  | subi (r : Reg) (n : BitVec 12)
  /-- SUBINB, R281. -/
  | subinb (r : Reg) (n : BitVec 12)
  /-- ILO, R204. -/
  | ilo (r : Reg) (n : BitVec 12)
  /-- ILOZ, R206. -/
  | iloz (r : Reg) (n : BitVec 12)
  /-- ILOM, R205. -/
  | ilom (r : Reg) (n : BitVec 12)
  /-- ILOMZ, R207. -/
  | ilomz (r : Reg) (n : BitVec 12)
  /-- CSHR, R350. -/
  | cshr (r : Reg) (b : BitCount)
  /-- CSHL, R351. -/
  | cshl (r : Reg) (b : BitCount)
  /-- LSHR, R345. -/
  | lshr (r : Reg) (b : BitCount)
  /-- LSHL, R346. -/
  | lshl (r : Reg) (b : BitCount)
  /-- ASHR, R344. -/
  | ashr (r : Reg) (b : BitCount)
  /-- ASHRD, R347. -/
  | ashrd (r : Reg) (b : BitCount)
  /-- LSHRD, R348. -/
  | lshrd (r : Reg) (b : BitCount)
  /-- LSHLD, R349. -/
  | lshld (r : Reg) (b : BitCount)
  /-- SOB, R361. -/
  | sob (r : Reg) (b : BitCount)
  /-- SZB, R362. -/
  | szb (r : Reg) (b : BitCount)
  /-- CLB, R363. -/
  | clb (r : Reg) (b : BitCount)
  /-- SETB, R364. -/
  | setb (r : Reg) (b : BitCount)
  /-- SOBCL, R365. -/
  | sobcl (r : Reg) (b : BitCount)
  /-- SZBCL, R366. -/
  | szbcl (r : Reg) (b : BitCount)
  /-- SOBSET, R367. -/
  | sobset (r : Reg) (b : BitCount)
  /-- SZBSET, R368. -/
  | szbset (r : Reg) (b : BitCount)
  /-- DEC, R310. -/
  | dec (r : Reg)
  /-- DECE, R310. -/
  | dece (r : Reg)
  /-- DECL, R310. -/
  | decl (r : Reg)
  /-- DECLE, R310. -/
  | decle (r : Reg)
  /-- DECG, R310. -/
  | decg (r : Reg)
  /-- DECGE, R310. -/
  | decge (r : Reg)
  /-- DECNE, R310. -/
  | decne (r : Reg)
  /-- DECA, R310. -/
  | deca (r : Reg)
  /-- INC, R311. -/
  | inc (r : Reg)
  /-- INCE, R311. -/
  | ince (r : Reg)
  /-- INCL, R311. -/
  | incl (r : Reg)
  /-- INCLE, R311. -/
  | incle (r : Reg)
  /-- INCG, R311. -/
  | incg (r : Reg)
  /-- INCGE, R311. -/
  | incge (r : Reg)
  /-- INCNE, R311. -/
  | incne (r : Reg)
  /-- INCA, R311. -/
  | inca (r : Reg)
  /-- COM, R312. -/
  | com (r : Reg)
  /-- COME, R312. -/
  | come (r : Reg)
  /-- COML, R312. -/
  | coml (r : Reg)
  /-- COMLE, R312. -/
  | comle (r : Reg)
  /-- COMG, R312. -/
  | comg (r : Reg)
  /-- COMGE, R312. -/
  | comge (r : Reg)
  /-- COMNE, R312. -/
  | comne (r : Reg)
  /-- COMA, R312. -/
  | coma (r : Reg)
  /-- NEG, R313. -/
  | neg (r : Reg)
  /-- NEGE, R313. -/
  | nege (r : Reg)
  /-- NEGL, R313. -/
  | negl (r : Reg)
  /-- NEGLE, R313. -/
  | negle (r : Reg)
  /-- NEGG, R313. -/
  | negg (r : Reg)
  /-- NEGGE, R313. -/
  | negge (r : Reg)
  /-- NEGNE, R313. -/
  | negne (r : Reg)
  /-- NEGA, R313. -/
  | nega (r : Reg)
  /-- TST, R314. -/
  | tst (r : Reg)
  /-- TSTE, R314. -/
  | tste (r : Reg)
  /-- TSTL, R314. -/
  | tstl (r : Reg)
  /-- TSTLE, R314. -/
  | tstle (r : Reg)
  /-- TSTG, R314. -/
  | tstg (r : Reg)
  /-- TSTGE, R314. -/
  | tstge (r : Reg)
  /-- TSTNE, R314. -/
  | tstne (r : Reg)
  /-- TSTA, R314. -/
  | tsta (r : Reg)
  /-- ZR, R315. -/
  | zr (r : Reg)
  /-- ZRE, R315. -/
  | zre (r : Reg)
  /-- ZRL, R315. -/
  | zrl (r : Reg)
  /-- ZRLE, R315. -/
  | zrle (r : Reg)
  /-- ZRG, R315. -/
  | zrg (r : Reg)
  /-- ZRGE, R315. -/
  | zrge (r : Reg)
  /-- ZRNE, R315. -/
  | zrne (r : Reg)
  /-- ZRA, R315. -/
  | zra (r : Reg)
  /-- ABV, R316. -/
  | abv (r : Reg)
  /-- ABVE, R316. -/
  | abve (r : Reg)
  /-- ABVL, R316. -/
  | abvl (r : Reg)
  /-- ABVLE, R316. -/
  | abvle (r : Reg)
  /-- ABVG, R316. -/
  | abvg (r : Reg)
  /-- ABVGE, R316. -/
  | abvge (r : Reg)
  /-- ABVNE, R316. -/
  | abvne (r : Reg)
  /-- ABVA, R316. -/
  | abva (r : Reg)
  /-- SLO, R330. -/
  | slo (r : Reg)
  /-- SLOE, R330. -/
  | sloe (r : Reg)
  /-- SLOL, R330. -/
  | slol (r : Reg)
  /-- SLOLE, R330. -/
  | slole (r : Reg)
  /-- SLOG, R330. -/
  | slog (r : Reg)
  /-- SLOGE, R330. -/
  | sloge (r : Reg)
  /-- SLONE, R330. -/
  | slone (r : Reg)
  /-- SLOA, R330. -/
  | sloa (r : Reg)
  /-- REX, R231. -/
  | rex (r : Reg)
  /-- MR, R353. -/
  | mr (r : Reg) (b : BitCount)
  /-- ML, R354. -/
  | ml (r : Reg) (b : BitCount)
  /-- CE, R300. -/
  | ce (r1 r2 : Reg)
  /-- CNE, R301. -/
  | cne (r1 r2 : Reg)
  /-- CEI, R302. -/
  | cei (r : Reg) (n : BitVec 12)
  /-- CNEI, R303. -/
  | cnei (r : Reg) (n : BitVec 12)
  /-- CEMI, R304. -/
  | cemi (r : Reg) (n : BitVec 12)
  /-- CNEMI, R305. -/
  | cnemi (r : Reg) (n : BitVec 12)
  /-- PUSH, R250. -/
  | push (r1 r2 : Reg)
  /-- POP, R255. -/
  | pop (r1 r2 : Reg)
  /-- IPUSH, R251. -/
  | ipush (r1 r2 : Reg)
  /-- IPOP, R256. -/
  | ipop (r1 r2 : Reg)
  /-- PUSHI, R252. -/
  | pushi (r1 r2 : Reg)
  /-- POPI, R257. -/
  | popi (r1 r2 : Reg)
  /-- DPUSH, R253. -/
  | dpush (r1 r2 : Reg)
  /-- DPOP, R258. -/
  | dpop (r1 r2 : Reg)
  /-- PUSHD, R254. -/
  | pushd (r1 r2 : Reg)
  /-- POPD, R259. -/
  | popd (r1 r2 : Reg)
  /-- REGJ, R224. -/
  | regj (r : Reg) (n : BitVec 12)
  /-- REGPJ, R225. -/
  | regpj (r : Reg) (n : BitVec 12)
  /-- REGJS, R226. -/
  | regjs (r : Reg) (n : BitVec 12)
  /-- IOT, R384. -/
  | iot (r : Reg) (dev : BitVec 16)
  /-- LOCLA, R445. -/
  | locla (da : DevAddr)
  /-- LOCLR, R446. -/
  | loclr (da : DevAddr)
  /-- LOCLSA, R447. -/
  | loclsa (da : DevAddr)
  /-- LOCLSR, R448. -/
  | loclsr (da : DevAddr)
  /-- LOMMA, R449. -/
  | lomma (da : DevAddr)
  /-- LOMMR, R450. -/
  | lommr (da : DevAddr)
  /-- LOMMP, R451. -/
  | lommp (da : DevAddr)
  /-- LOMDR, R452. -/
  | lomdr
  /-- STCL, R453. -/
  | stcl (da : DevAddr)
  /-- STMM, R454. -/
  | stmm (da : DevAddr)
  /-- NOMM, R476. -/
  | nomm
  /-- POPMM, R478. -/
  | popmm (da : DevAddr)
  /-- STMDR, R455. -/
  | stmdr
  /-- RTCLA, R465. -/
  | rtcla (da : DevAddr)
  /-- RTCLR, R466. -/
  | rtclr (da : DevAddr)
  /-- RTCLSA, R467. -/
  | rtclsa (da : DevAddr)
  /-- RTCLSR, R468. -/
  | rtclsr (da : DevAddr)
  /-- RTMM, R471. -/
  | rtmm (da : DevAddr)
  /-- RTMMS, R472. -/
  | rtmms (da : DevAddr)
  /-- RTMDR, R469. -/
  | rtmdr
  /-- SKCL, R470. -/
  | skcl (da : DevAddr)
  /-- SKMM, R473. -/
  | skmm (da : DevAddr)
  /-- SKMMS, R474. -/
  | skmms (da : DevAddr)
  /-- PUSHMM, R477. -/
  | pushmm (da : DevAddr)
  /-- SKMDR, R475. -/
  | skmdr
  /-- TD, R504. -/
  | td (f1 : Fsm1) (f2 : Fsm2)
  /-- TDR, R501. -/
  | tdr (f1 : Fsm1) (f2 : Fsm2)
  /-- TDI, R506. -/
  | tdi (f1 : Fsm1) (f2 : Fsm2)
  /-- TDIR, R502. -/
  | tdir (f1 : Fsm1) (f2 : Fsm2)
  /-- TDIX, R507. -/
  | tdix (f1 : Fsm1) (f2 : Fsm2)
  /-- TDIXR, R503. -/
  | tdixr (f1 : Fsm1) (f2 : Fsm2)
  /-- MMD, R510. -/
  | mmd (f1 : Fsm1)
  /-- MMDR, R509. -/
  | mmdr (f1 : Fsm1)
  /-- SD, R498. -/
  | sd (i x : Bool) (man : Manner) (addr : BitVec 16)
  /-- RLOCLA, R456. -/
  | rlocla (da : DevAddr) (x : XSel)
  /-- RLOCLR, R457. -/
  | rloclr (da : DevAddr) (x : XSel)
  /-- RLOMMA, R458. -/
  | rlomma (da : DevAddr) (x : XSel)
  /-- RLOMMR, R459. -/
  | rlommr (da : DevAddr) (x : XSel)
  /-- RLOMMP, R460. -/
  | rlommp (da : DevAddr) (x : XSel)
  /-- RSTCL, R462. -/
  | rstcl (da : DevAddr) (x : XSel)
  /-- RSTMM, R463. -/
  | rstmm (da : DevAddr) (x : XSel)
  /-- RLOMDR, R461; the DA field, which has no effect, is no operand. -/
  | rlomdr (x : XSel)
  /-- RSTMDR, R464. -/
  | rstmdr (x : XSel)
  /-- RD, R508. -/
  | rd (f1 : Fsm1) (f2 : Fsm2) (x : XSel)
  /-- NOP, R314. Another spelling of a word of TST (R165). -/
  | nop
  /-- SLEEP, R392. Another spelling of a word of IOT (R165). -/
  | sleep
  /-- POPJ, R227. Another spelling of a word of REGJS (R165). -/
  | popj
  /-- POPJOF, R228. Another spelling of a word of REGJS (R165). -/
  | popjof (n : BitVec 12)
  /-- ASHL, R346. Another spelling of a word of LSHL (R165). -/
  | ashl (r : Reg) (b : BitCount)
  /-- ASHLD, R349. Another spelling of a word of LSHLD (R165). -/
  | ashld (r : Reg) (b : BitCount)
deriving DecidableEq, Repr

end Sys2Proof
end

