-- ==== Sys2Proof/WellFormed.lean ====
section
/-!
DEFINITION. Well-formed instructions. Every operand's range is in its type, so one thing is left to check:
six rows of the opcode table are second spellings of words of other rows (R165), and a term written with one
of them is not the term a word decodes to.
-/

namespace Sys2Proof

/-- The instruction a decoder reads from the word of `i`: NOP is TST 0, SLEEP is IOT ,010, POPJ and POPJOF are
REGJS TOS, ASHL is LSHL and ASHLD is LSHLD (R156, R158, R159, R165, R187); every other term is its own. -/
def Instr.canon : Instr → Instr
  | .nop => .tst Reg.ac0
  | .sleep => .iot Reg.ac0 0x0008
  | .popj => .regjs Reg.tos 0
  | .popjof n => .regjs Reg.tos n
  | .ashl r b => .lshl r b
  | .ashld r b => .lshld r b
  | i => i

/-- `i` is written with the mnemonic the decoder gives its word (R165). -/
abbrev Instr.WellFormed (i : Instr) : Prop := i.canon = i

end Sys2Proof
end

