-- ==== Sys2Proof/Decode.lean ====
section
/-!
DEFINITION. Decoding a word, total and rejecting by name, and the encoder (R143 to R161, R164, R165).
-/

namespace Sys2Proof

/-- Why a word is no instruction: the cases of R160. Each raises Unimplemented Instruction (R603). -/
inductive DecodeError
  /-- R160 (a): class 110 with an unassigned function code. -/
  | reservedAlu
  /-- R160 (b): class 111 with function code 017, or 2 or 3. -/
  | reservedStack
  /-- R160 (c): class 101 with bit 0 set and a switches bit that no row has. -/
  | reservedUnary
  /-- R160 (e): class 100 with bit 20 clear and a combination R423 marks with a dash. -/
  | reservedTransfer
  /-- R160 (f): class 100 with bit 20 set and a bit no drawing row has. -/
  | reservedDraw
  /-- R160 (g): a bit R161 calls unused is 1. -/
  | unusedBits
deriving DecidableEq, Repr

namespace Decode

/-- Bit 0: the indirect flag, or the second half of a class (R143, R146). -/
def fI (w : Word) : Bool := w.getMsbD 0
/-- Bits 0 to 3, the class nibble (R144). -/
def fClass (w : Word) : BitVec 4 := w.extractLsb' 20 4
/-- Bits 4 to 7, the register R or R1, the manner or the device and manner (R143). -/
def fR (w : Word) : BitVec 4 := w.extractLsb' 16 4
/-- Bits 8 to 23, the in-page address or the device code (R143). -/
def fAddr (w : Word) : BitVec 16 := w.extractLsb' 0 16
/-- Bits 8 to 15, unused in most formats (R161). -/
def fUnused (w : Word) : BitVec 8 := w.extractLsb' 8 8
/-- Bits 8 to 14, unused in format RB (R161). -/
def fUnusedB (w : Word) : BitVec 7 := w.extractLsb' 9 7
/-- Bits 8 to 19, the immediate N (R143). -/
def fN (w : Word) : BitVec 12 := w.extractLsb' 4 12
/-- Bits 15 to 19, the bit count b (R143). -/
def fB (w : Word) : BitVec 5 := w.extractLsb' 4 5
/-- Bits 16 to 19, the register R2, the device address, or switches bit and condition bits (R143). -/
def fR2 (w : Word) : BitVec 4 := w.extractLsb' 4 4
/-- Bits 20 to 23, the function code (R143). -/
def fFn (w : Word) : BitVec 4 := w.extractLsb' 0 4

end Decode

open Decode

/-- The manner of a single draw from bits 4 to 7; `none` at 3, 7 and 013, which are J, PUSHJ and XEQ (R152, R494). -/
def toManner (v : BitVec 4) : Option Manner :=
  match v with
  | 0x0#4 => some .seta | 0x1#4 => some .setr | 0x2#4 => some .setv
  | 0x4#4 => some .toa | 0x5#4 => some .tor | 0x6#4 => some .tov
  | 0x8#4 => some .dota | 0x9#4 => some .dotr | 0xA#4 => some .dotv
  | 0xC#4 => some .boxa | 0xD#4 => some .boxr | 0xE#4 => some .frma | 0xF#4 => some .frmr
  | _ => none

/-- The code of a manner (R494). -/
def ofManner : Manner → BitVec 4
  | .seta => 0x0#4 | .setr => 0x1#4 | .setv => 0x2#4
  | .toa => 0x4#4 | .tor => 0x5#4 | .tov => 0x6#4
  | .dota => 0x8#4 | .dotr => 0x9#4 | .dotv => 0xA#4
  | .boxa => 0xC#4 | .boxr => 0xD#4 | .frma => 0xE#4 | .frmr => 0xF#4

/-- The X field from bits 21 to 23; 6 and 7 belong to other instructions (R149). -/
def toXSel (v : BitVec 3) : Option XSel :=
  match v with
  | 0#3 => some .sac0 | 1#3 => some .sx | 2#3 => some .sac2
  | 3#3 => some .sz | 4#3 => some .dac0 | 5#3 => some .dx
  | _ => none

/-- The code of an X field (R149). -/
def ofXSel : XSel → BitVec 3
  | .sac0 => 0#3 | .sx => 1#3 | .sac2 => 2#3 | .sz => 3#3 | .dac0 => 4#3 | .dx => 5#3

/-- The FSM1 state of a 3-bit field (R154, R496). -/
def toFsm1 (v : BitVec 3) : Fsm1 :=
  match v with
  | 0#3 => .box | 1#3 => .dot | 2#3 => .drawTo | 3#3 => .poly
  | 4#3 => .star | 5#3 => .drawFrom | 6#3 => .line | _ => .nline

/-- The code of an FSM1 state (R154). -/
def ofFsm1 : Fsm1 → BitVec 3
  | .box => 0#3 | .dot => 1#3 | .drawTo => 2#3 | .poly => 3#3
  | .star => 4#3 | .drawFrom => 5#3 | .line => 6#3 | .nline => 7#3

/-- The FSM2 state of a 3-bit field (R154, R497). -/
def toFsm2 (v : BitVec 3) : Fsm2 :=
  match v with
  | 0#3 => .av | 1#3 => .vv | 2#3 => .aa | 3#3 => .ra
  | 4#3 => .ar | 5#3 => .rr | 6#3 => .ax | _ => .rx

/-- The code of an FSM2 state (R154). -/
def ofFsm2 : Fsm2 → BitVec 3
  | .av => 0#3 | .vv => 1#3 | .aa => 2#3 | .ra => 3#3
  | .ar => 4#3 | .rr => 5#3 | .ax => 6#3 | .rx => 7#3

/-- `i` if the bits that R161 calls unused are all 0 (R160 (g)). -/
def ifUnusedZero {k : Nat} (u : BitVec k) (i : Except DecodeError Instr) : Except DecodeError Instr :=
  if u = 0 then i else .error .unusedBits

/-- Class 01x: SD, J, PUSHJ, XEQ, told apart by bits 4 to 7 (R152). -/
def decodeJmp (i x : Bool) (w : Word) : Except DecodeError Instr :=
  match toManner (fR w) with
  | some m => .ok (.sd i x m (fAddr w))
  | none =>
    match fR w with
    | 0x3#4 => .ok (.j i x (fAddr w))
    | 0x7#4 => .ok (.pushj i x (fAddr w))
    | _ => .ok (.xeq i x (fAddr w))

/-- Class 100 with bits 20 to 23 = 0110: memory load, or the store group (R153, R423). -/
def decodeMem (u : Bool) (dm : BitVec 4) (da : DevAddr) : Except DecodeError Instr :=
  match u, dm with
  | false, 0x0#4 => .ok (.locla da)
  | false, 0x1#4 => .ok (.loclr da)
  | false, 0x2#4 => .ok (.loclsa da)
  | false, 0x3#4 => .ok (.loclsr da)
  | false, 0x4#4 => .ok (.lomma da)
  | false, 0x5#4 => .ok (.lommr da)
  | false, 0x6#4 => .ok (.lommp da)
  | false, 0x7#4 => if da = 0 then .ok .lomdr else .error .unusedBits
  | true, 0x0#4 => .ok (.stcl da)
  | true, 0x4#4 => .ok (.stmm da)
  | true, 0x5#4 => if da = 0 then .ok .nomm else .error .unusedBits
  | true, 0x6#4 => .ok (.popmm da)
  | true, 0x7#4 => if da = 0 then .ok .stmdr else .error .unusedBits
  | _, _ => .error .reservedTransfer

/-- Class 100 with bits 20 to 23 = 0111: retrieve, or the sink group (R153, R423). -/
def decodeSink (u : Bool) (dm : BitVec 4) (da : DevAddr) : Except DecodeError Instr :=
  match u, dm with
  | false, 0x0#4 => .ok (.rtcla da)
  | false, 0x1#4 => .ok (.rtclr da)
  | false, 0x2#4 => .ok (.rtclsa da)
  | false, 0x3#4 => .ok (.rtclsr da)
  | false, 0x4#4 => .ok (.rtmm da)
  | false, 0x5#4 => .ok (.rtmms da)
  | false, 0x7#4 => if da = 0 then .ok .rtmdr else .error .unusedBits
  | true, 0x0#4 => .ok (.skcl da)
  | true, 0x4#4 => .ok (.skmm da)
  | true, 0x5#4 => .ok (.skmms da)
  | true, 0x6#4 => .ok (.pushmm da)
  | true, 0x7#4 => if da = 0 then .ok .skmdr else .error .unusedBits
  | _, _ => .error .reservedTransfer

/-- Class 100 with bits 20 to 23 = 0xxx, xxx = 0 to 5: register load and store (R153, R423). DESIGN CHOICE: RLOMDR is decoded with any DA
field, which has no effect (R461), though the table of opcodes has it zero; RSTMDR with a nonzero DA field, of which R464 says nothing, is
no instruction, as the table has it (log 19). -/
def decodeRegTransfer (u : Bool) (dm : BitVec 4) (da : DevAddr) (x : XSel) : Except DecodeError Instr :=
  match u, dm with
  | false, 0x0#4 => .ok (.rlocla da x)
  | false, 0x1#4 => .ok (.rloclr da x)
  | false, 0x4#4 => .ok (.rlomma da x)
  | false, 0x5#4 => .ok (.rlommr da x)
  | false, 0x6#4 => .ok (.rlommp da x)
  | false, 0x7#4 => .ok (.rlomdr x)
  | true, 0x0#4 => .ok (.rstcl da x)
  | true, 0x4#4 => .ok (.rstmm da x)
  | true, 0x7#4 => if da = 0 then .ok (.rstmdr x) else .error .unusedBits
  | _, _ => .error .reservedTransfer

/-- Table draws: bits 20 to 23 = 1110, by bit 0 (indirect), bit 4 (indexed) and bit 16 (repeat) (R154). -/
def decodeTd (w : Word) : Except DecodeError Instr :=
  let f1 := toFsm1 ((fR w).extractLsb' 0 3)
  let f2 := toFsm2 ((fR2 w).extractLsb' 0 3)
  match fI w, (fR w).getMsbD 0, (fR2 w).getMsbD 0 with
  | false, false, false => .ok (.td f1 f2)
  | false, false, true => .ok (.tdr f1 f2)
  | true, false, false => .ok (.tdi f1 f2)
  | true, false, true => .ok (.tdir f1 f2)
  | true, true, false => .ok (.tdix f1 f2)
  | true, true, true => .ok (.tdixr f1 f2)
  | false, true, _ => .error .reservedDraw

/-- Matrix Multiplier draws: bits 20 to 23 = 1111, bits 17 to 19 = 010, bits 0 and 4 zero (R154, R160 (f)). -/
def decodeMmd (w : Word) : Except DecodeError Instr :=
  let f1 := toFsm1 ((fR w).extractLsb' 0 3)
  if fI w || (fR w).getMsbD 0 then .error .reservedDraw
  else match fR2 w with
    | 0x2#4 => .ok (.mmd f1)
    | 0xA#4 => .ok (.mmdr f1)
    | _ => .error .reservedDraw

/-- Register draws: bits 20 to 23 = 1xxx, xxx = 0 to 5; bits 0, 4 and 16 zero (R154, R160 (f)). -/
def decodeRd (w : Word) (x : XSel) : Except DecodeError Instr :=
  if fI w || (fR w).getMsbD 0 || (fR2 w).getMsbD 0 then .error .reservedDraw
  else .ok (.rd (toFsm1 ((fR w).extractLsb' 0 3)) (toFsm2 ((fR2 w).extractLsb' 0 3)) x)

/-- Class 100 (R153, R154, R164). -/
def decodePipe (w : Word) : Except DecodeError Instr :=
  ifUnusedZero (fUnused w) <|
    match toXSel ((fFn w).extractLsb' 0 3), (fFn w).getMsbD 0 with
    | some x, false => decodeRegTransfer (fI w) (fR w) (toReg (fR2 w)) x
    | some x, true => decodeRd w x
    | none, false => if fFn w = 0x6#4 then decodeMem (fI w) (fR w) (toReg (fR2 w))
        else decodeSink (fI w) (fR w) (toReg (fR2 w))
    | none, true => if fFn w = 0xE#4 then decodeTd w else decodeMmd w

/-- Class 101 with bit 0 = 0: shifts and bit instructions (R155). -/
def decodeShift (w : Word) : Except DecodeError Instr :=
  ifUnusedZero (fUnusedB w) <|
    match fFn w with
    | 0x0#4 => .ok (.cshr (toReg (fR w)) (toCount (fB w)))
    | 0x1#4 => .ok (.cshl (toReg (fR w)) (toCount (fB w)))
    | 0x2#4 => .ok (.lshr (toReg (fR w)) (toCount (fB w)))
    | 0x3#4 => .ok (.lshl (toReg (fR w)) (toCount (fB w)))
    | 0x4#4 => .ok (.ashr (toReg (fR w)) (toCount (fB w)))
    | 0x5#4 => .ok (.ashrd (toReg (fR w)) (toCount (fB w)))
    | 0x6#4 => .ok (.lshrd (toReg (fR w)) (toCount (fB w)))
    | 0x7#4 => .ok (.lshld (toReg (fR w)) (toCount (fB w)))
    | 0x8#4 => .ok (.sob (toReg (fR w)) (toCount (fB w)))
    | 0x9#4 => .ok (.szb (toReg (fR w)) (toCount (fB w)))
    | 0xA#4 => .ok (.clb (toReg (fR w)) (toCount (fB w)))
    | 0xB#4 => .ok (.setb (toReg (fR w)) (toCount (fB w)))
    | 0xC#4 => .ok (.sobcl (toReg (fR w)) (toCount (fB w)))
    | 0xD#4 => .ok (.szbcl (toReg (fR w)) (toCount (fB w)))
    | 0xE#4 => .ok (.sobset (toReg (fR w)) (toCount (fB w)))
    | _ => .ok (.szbset (toReg (fR w)) (toCount (fB w)))

/-- DEC in its eight condition forms, by bits 17 to 19 (R156). -/
def decodeDec (c : BitVec 3) (r : Reg) : Instr :=
  match c with
  | 0#3 => .dec r
  | 1#3 => .dece r
  | 2#3 => .decg r
  | 3#3 => .decge r
  | 4#3 => .decl r
  | 5#3 => .decle r
  | 6#3 => .decne r
  | _ => .deca r

/-- INC in its eight condition forms, by bits 17 to 19 (R156). -/
def decodeInc (c : BitVec 3) (r : Reg) : Instr :=
  match c with
  | 0#3 => .inc r
  | 1#3 => .ince r
  | 2#3 => .incg r
  | 3#3 => .incge r
  | 4#3 => .incl r
  | 5#3 => .incle r
  | 6#3 => .incne r
  | _ => .inca r

/-- COM in its eight condition forms, by bits 17 to 19 (R156). -/
def decodeCom (c : BitVec 3) (r : Reg) : Instr :=
  match c with
  | 0#3 => .com r
  | 1#3 => .come r
  | 2#3 => .comg r
  | 3#3 => .comge r
  | 4#3 => .coml r
  | 5#3 => .comle r
  | 6#3 => .comne r
  | _ => .coma r

/-- NEG in its eight condition forms, by bits 17 to 19 (R156). -/
def decodeNeg (c : BitVec 3) (r : Reg) : Instr :=
  match c with
  | 0#3 => .neg r
  | 1#3 => .nege r
  | 2#3 => .negg r
  | 3#3 => .negge r
  | 4#3 => .negl r
  | 5#3 => .negle r
  | 6#3 => .negne r
  | _ => .nega r

/-- TST in its eight condition forms, by bits 17 to 19 (R156). -/
def decodeTst (c : BitVec 3) (r : Reg) : Instr :=
  match c with
  | 0#3 => .tst r
  | 1#3 => .tste r
  | 2#3 => .tstg r
  | 3#3 => .tstge r
  | 4#3 => .tstl r
  | 5#3 => .tstle r
  | 6#3 => .tstne r
  | _ => .tsta r

/-- ZR in its eight condition forms, by bits 17 to 19 (R156). -/
def decodeZr (c : BitVec 3) (r : Reg) : Instr :=
  match c with
  | 0#3 => .zr r
  | 1#3 => .zre r
  | 2#3 => .zrg r
  | 3#3 => .zrge r
  | 4#3 => .zrl r
  | 5#3 => .zrle r
  | 6#3 => .zrne r
  | _ => .zra r

/-- ABV in its eight condition forms, by bits 17 to 19 (R156). -/
def decodeAbv (c : BitVec 3) (r : Reg) : Instr :=
  match c with
  | 0#3 => .abv r
  | 1#3 => .abve r
  | 2#3 => .abvg r
  | 3#3 => .abvge r
  | 4#3 => .abvl r
  | 5#3 => .abvle r
  | 6#3 => .abvne r
  | _ => .abva r

/-- SLO in its eight condition forms, by bits 17 to 19 (R156). -/
def decodeSlo (c : BitVec 3) (r : Reg) : Instr :=
  match c with
  | 0#3 => .slo r
  | 1#3 => .sloe r
  | 2#3 => .slog r
  | 3#3 => .sloge r
  | 4#3 => .slol r
  | 5#3 => .slole r
  | 6#3 => .slone r
  | _ => .sloa r

/-- Class 101 with bit 0 = 1, function codes 0 to 6: the unary instructions; bit 16 selects SLO, of code 4 only (R156). -/
def decodeUnary (w : Word) : Except DecodeError Instr :=
  let c := (fR2 w).extractLsb' 0 3
  let r := toReg (fR w)
  ifUnusedZero (fUnused w) <|
    match (fR2 w).getMsbD 0, fFn w with
    | false, 0x0#4 => .ok (decodeDec c r)
    | false, 0x1#4 => .ok (decodeInc c r)
    | false, 0x2#4 => .ok (decodeCom c r)
    | false, 0x3#4 => .ok (decodeNeg c r)
    | false, 0x4#4 => .ok (decodeTst c r)
    | false, 0x5#4 => .ok (decodeZr c r)
    | false, 0x6#4 => .ok (decodeAbv c r)
    | true, 0x4#4 => .ok (decodeSlo c r)
    | _, _ => .error .reservedUnary

/-- Class 101 with bit 0 = 1 (R156). -/
def decodeUnaryClass (w : Word) : Except DecodeError Instr :=
  match fFn w with
  | 0x7#4 => ifUnusedZero (fUnused w) (if fR2 w = 0 then .ok (.rex (toReg (fR w))) else .error .reservedUnary)
  | 0x8#4 => ifUnusedZero (fUnusedB w) (.ok (.mr (toReg (fR w)) (toCount (fB w))))
  | 0x9#4 => ifUnusedZero (fUnusedB w) (.ok (.ml (toReg (fR w)) (toCount (fB w))))
  | 0xA#4 => ifUnusedZero (fUnused w) (.ok (.ce (toReg (fR w)) (toReg (fR2 w))))
  | 0xB#4 => ifUnusedZero (fUnused w) (.ok (.cne (toReg (fR w)) (toReg (fR2 w))))
  | 0xC#4 => .ok (.cei (toReg (fR w)) (fN w))
  | 0xD#4 => .ok (.cnei (toReg (fR w)) (fN w))
  | 0xE#4 => .ok (.cemi (toReg (fR w)) (fN w))
  | 0xF#4 => .ok (.cnemi (toReg (fR w)) (fN w))
  | _ => decodeUnary w

/-- Class 110: arithmetic, logical and register loads; bit 0 selects the skip form (R157). -/
def decodeAlu (w : Word) : Except DecodeError Instr :=
  match fI w, fFn w with
  | false, 0x0#4 => ifUnusedZero (fUnused w) (.ok (.add (toReg (fR w)) (toReg (fR2 w))))
  | true, 0x0#4 => ifUnusedZero (fUnused w) (.ok (.addnc (toReg (fR w)) (toReg (fR2 w))))
  | false, 0x1#4 => ifUnusedZero (fUnused w) (.ok (.sub (toReg (fR w)) (toReg (fR2 w))))
  | true, 0x1#4 => ifUnusedZero (fUnused w) (.ok (.subnb (toReg (fR w)) (toReg (fR2 w))))
  | false, 0x2#4 => ifUnusedZero (fUnused w) (.ok (.rlo (toReg (fR w)) (toReg (fR2 w))))
  | true, 0x2#4 => ifUnusedZero (fUnused w) (.ok (.rloz (toReg (fR w)) (toReg (fR2 w))))
  | false, 0x3#4 => ifUnusedZero (fUnused w) (.ok (.xor (toReg (fR w)) (toReg (fR2 w))))
  | true, 0x3#4 => ifUnusedZero (fUnused w) (.ok (.xorz (toReg (fR w)) (toReg (fR2 w))))
  | false, 0x4#4 => ifUnusedZero (fUnused w) (.ok (.and (toReg (fR w)) (toReg (fR2 w))))
  | true, 0x4#4 => ifUnusedZero (fUnused w) (.ok (.andz (toReg (fR w)) (toReg (fR2 w))))
  | false, 0x5#4 => ifUnusedZero (fUnused w) (.ok (.or (toReg (fR w)) (toReg (fR2 w))))
  | true, 0x5#4 => ifUnusedZero (fUnused w) (.ok (.orz (toReg (fR w)) (toReg (fR2 w))))
  | true, 0x6#4 => ifUnusedZero (fUnused w) (.ok (.xornz (toReg (fR w)) (toReg (fR2 w))))
  | true, 0x7#4 => ifUnusedZero (fUnused w) (.ok (.andnz (toReg (fR w)) (toReg (fR2 w))))
  | false, 0x8#4 => .ok (.addi (toReg (fR w)) (fN w))
  | true, 0x8#4 => .ok (.addinc (toReg (fR w)) (fN w))
  | false, 0x9#4 => .ok (.subi (toReg (fR w)) (fN w))
  | true, 0x9#4 => .ok (.subinb (toReg (fR w)) (fN w))
  | false, 0xA#4 => .ok (.ilo (toReg (fR w)) (fN w))
  | true, 0xA#4 => .ok (.iloz (toReg (fR w)) (fN w))
  | false, 0xB#4 => .ok (.ilom (toReg (fR w)) (fN w))
  | true, 0xB#4 => .ok (.ilomz (toReg (fR w)) (fN w))
  | _, _ => .error .reservedAlu

/-- Class 111 with bit 0 = 0: stack instructions and register jumps. Codes 2 and 3 act as PUSH and POP only under the
parameter STACK_FN_BIT22_DONTCARE (R158, D19). -/
def decodeStack (bit22 : Bool) (w : Word) : Except DecodeError Instr :=
  match fFn w with
  | 0x0#4 => ifUnusedZero (fUnused w) (.ok (.push (toReg (fR w)) (toReg (fR2 w))))
  | 0x1#4 => ifUnusedZero (fUnused w) (.ok (.pop (toReg (fR w)) (toReg (fR2 w))))
  | 0x4#4 => ifUnusedZero (fUnused w) (.ok (.ipush (toReg (fR w)) (toReg (fR2 w))))
  | 0x5#4 => ifUnusedZero (fUnused w) (.ok (.ipop (toReg (fR w)) (toReg (fR2 w))))
  | 0x6#4 => ifUnusedZero (fUnused w) (.ok (.pushi (toReg (fR w)) (toReg (fR2 w))))
  | 0x7#4 => ifUnusedZero (fUnused w) (.ok (.popi (toReg (fR w)) (toReg (fR2 w))))
  | 0x8#4 => ifUnusedZero (fUnused w) (.ok (.dpush (toReg (fR w)) (toReg (fR2 w))))
  | 0x9#4 => ifUnusedZero (fUnused w) (.ok (.dpop (toReg (fR w)) (toReg (fR2 w))))
  | 0xA#4 => ifUnusedZero (fUnused w) (.ok (.pushd (toReg (fR w)) (toReg (fR2 w))))
  | 0xB#4 => ifUnusedZero (fUnused w) (.ok (.popd (toReg (fR w)) (toReg (fR2 w))))
  | 0x2#4 => if bit22 then ifUnusedZero (fUnused w) (.ok (.push (toReg (fR w)) (toReg (fR2 w))))
      else .error .reservedStack
  | 0x3#4 => if bit22 then ifUnusedZero (fUnused w) (.ok (.pop (toReg (fR w)) (toReg (fR2 w))))
      else .error .reservedStack
  | 0xC#4 => .ok (.regj (toReg (fR w)) (fN w))
  | 0xD#4 => .ok (.regpj (toReg (fR w)) (fN w))
  | 0xE#4 => .ok (.regjs (toReg (fR w)) (fN w))
  | _ => .error .reservedStack

/-- Decoding a word (R164): the class nibble selects the rest. `bit22` is STACK_FN_BIT22_DONTCARE (R158). -/
def decodeWith (bit22 : Bool) (w : Word) : Except DecodeError Instr :=
  match fClass w with
  | 0x0#4 => .ok (.lo false (toReg (fR w)) (fAddr w))
  | 0x8#4 => .ok (.lo true (toReg (fR w)) (fAddr w))
  | 0x1#4 => .ok (.st false (toReg (fR w)) (fAddr w))
  | 0x9#4 => .ok (.st true (toReg (fR w)) (fAddr w))
  | 0x2#4 => decodeJmp false false w
  | 0xA#4 => decodeJmp true false w
  | 0x3#4 => decodeJmp false true w
  | 0xB#4 => decodeJmp true true w
  | 0x4#4 | 0xC#4 => decodePipe w
  | 0x5#4 => decodeShift w
  | 0xD#4 => decodeUnaryClass w
  | 0x6#4 | 0xE#4 => decodeAlu w
  | 0x7#4 => decodeStack bit22 w
  | _ => .ok (.iot (toReg (fR w)) (fAddr w))

/-- Decoding under the default of STACK_FN_BIT22_DONTCARE, false (93_implementation_defined.md section 3). -/
def decode (w : Word) : Except DecodeError Instr := decodeWith false w

/-! ### The encoder (R145) -/

/-- Formats MEM and JMP and IOT: class nibble, 4-bit field, 16-bit field. -/
def fmtAddr (c r : BitVec 4) (a : BitVec 16) : Word := c ++ r ++ a

/-- Formats RR, UN, PL, PLX, TD, RD, MMD: bits 8 to 15 zero. -/
def fmtRR (c r r2 fn : BitVec 4) : Word := c ++ r ++ 0#8 ++ r2 ++ fn

/-- Format RN. -/
def fmtRN (c r : BitVec 4) (n : BitVec 12) (fn : BitVec 4) : Word := c ++ r ++ n ++ fn

/-- Format RB: bits 8 to 14 zero. -/
def fmtRB (c r : BitVec 4) (b : BitVec 5) (fn : BitVec 4) : Word := c ++ r ++ 0#7 ++ b ++ fn

/-- The class nibble of format JMP: bit 0 indirect, bit 3 indexed (R144, R146, R147). -/
def jmpClass (i x : Bool) : BitVec 4 :=
  match i, x with
  | false, false => 0x2#4 | true, false => 0xA#4 | false, true => 0x3#4 | true, true => 0xB#4

/-- The class nibble of LO (R151). -/
def loClass (i : Bool) : BitVec 4 := if i then 0x8#4 else 0x0#4

/-- The class nibble of ST (R151). -/
def stClass (i : Bool) : BitVec 4 := if i then 0x9#4 else 0x1#4

/-- The function code of a register transfer, 0xxx (R153). -/
def xFn (x : XSel) : BitVec 4 := 0#1 ++ ofXSel x

/-- The function code of a register draw, 1xxx (R154). -/
def rdFn (x : XSel) : BitVec 4 := 1#1 ++ ofXSel x

/-- The word of an instruction, from the tables R151 to R159. -/
def encode : Instr → Word
  | .lo i r addr => fmtAddr (loClass i) (ofReg r) addr
  | .st i r addr => fmtAddr (stClass i) (ofReg r) addr
  | .j i x addr => fmtAddr (jmpClass i x) 0x3#4 addr
  | .pushj i x addr => fmtAddr (jmpClass i x) 0x7#4 addr
  | .xeq i x addr => fmtAddr (jmpClass i x) 0xB#4 addr
  | .add r1 r2 => fmtRR 0x6#4 (ofReg r1) (ofReg r2) 0x0#4
  | .addnc r1 r2 => fmtRR 0xE#4 (ofReg r1) (ofReg r2) 0x0#4
  | .sub r1 r2 => fmtRR 0x6#4 (ofReg r1) (ofReg r2) 0x1#4
  | .subnb r1 r2 => fmtRR 0xE#4 (ofReg r1) (ofReg r2) 0x1#4
  | .rlo r1 r2 => fmtRR 0x6#4 (ofReg r1) (ofReg r2) 0x2#4
  | .rloz r1 r2 => fmtRR 0xE#4 (ofReg r1) (ofReg r2) 0x2#4
  | .xor r1 r2 => fmtRR 0x6#4 (ofReg r1) (ofReg r2) 0x3#4
  | .xorz r1 r2 => fmtRR 0xE#4 (ofReg r1) (ofReg r2) 0x3#4
  | .and r1 r2 => fmtRR 0x6#4 (ofReg r1) (ofReg r2) 0x4#4
  | .andz r1 r2 => fmtRR 0xE#4 (ofReg r1) (ofReg r2) 0x4#4
  | .or r1 r2 => fmtRR 0x6#4 (ofReg r1) (ofReg r2) 0x5#4
  | .orz r1 r2 => fmtRR 0xE#4 (ofReg r1) (ofReg r2) 0x5#4
  | .xornz r1 r2 => fmtRR 0xE#4 (ofReg r1) (ofReg r2) 0x6#4
  | .andnz r1 r2 => fmtRR 0xE#4 (ofReg r1) (ofReg r2) 0x7#4
  | .addi r n => fmtRN 0x6#4 (ofReg r) n 0x8#4
  | .addinc r n => fmtRN 0xE#4 (ofReg r) n 0x8#4
  | .subi r n => fmtRN 0x6#4 (ofReg r) n 0x9#4
  | .subinb r n => fmtRN 0xE#4 (ofReg r) n 0x9#4
  | .ilo r n => fmtRN 0x6#4 (ofReg r) n 0xA#4
  | .iloz r n => fmtRN 0xE#4 (ofReg r) n 0xA#4
  | .ilom r n => fmtRN 0x6#4 (ofReg r) n 0xB#4
  | .ilomz r n => fmtRN 0xE#4 (ofReg r) n 0xB#4
  | .cshr r b => fmtRB 0x5#4 (ofReg r) (ofCount b) 0x0#4
  | .cshl r b => fmtRB 0x5#4 (ofReg r) (ofCount b) 0x1#4
  | .lshr r b => fmtRB 0x5#4 (ofReg r) (ofCount b) 0x2#4
  | .lshl r b => fmtRB 0x5#4 (ofReg r) (ofCount b) 0x3#4
  | .ashr r b => fmtRB 0x5#4 (ofReg r) (ofCount b) 0x4#4
  | .ashrd r b => fmtRB 0x5#4 (ofReg r) (ofCount b) 0x5#4
  | .lshrd r b => fmtRB 0x5#4 (ofReg r) (ofCount b) 0x6#4
  | .lshld r b => fmtRB 0x5#4 (ofReg r) (ofCount b) 0x7#4
  | .sob r b => fmtRB 0x5#4 (ofReg r) (ofCount b) 0x8#4
  | .szb r b => fmtRB 0x5#4 (ofReg r) (ofCount b) 0x9#4
  | .clb r b => fmtRB 0x5#4 (ofReg r) (ofCount b) 0xA#4
  | .setb r b => fmtRB 0x5#4 (ofReg r) (ofCount b) 0xB#4
  | .sobcl r b => fmtRB 0x5#4 (ofReg r) (ofCount b) 0xC#4
  | .szbcl r b => fmtRB 0x5#4 (ofReg r) (ofCount b) 0xD#4
  | .sobset r b => fmtRB 0x5#4 (ofReg r) (ofCount b) 0xE#4
  | .szbset r b => fmtRB 0x5#4 (ofReg r) (ofCount b) 0xF#4
  | .dec r => fmtRR 0xD#4 (ofReg r) 0x0#4 0x0#4
  | .dece r => fmtRR 0xD#4 (ofReg r) 0x1#4 0x0#4
  | .decl r => fmtRR 0xD#4 (ofReg r) 0x4#4 0x0#4
  | .decle r => fmtRR 0xD#4 (ofReg r) 0x5#4 0x0#4
  | .decg r => fmtRR 0xD#4 (ofReg r) 0x2#4 0x0#4
  | .decge r => fmtRR 0xD#4 (ofReg r) 0x3#4 0x0#4
  | .decne r => fmtRR 0xD#4 (ofReg r) 0x6#4 0x0#4
  | .deca r => fmtRR 0xD#4 (ofReg r) 0x7#4 0x0#4
  | .inc r => fmtRR 0xD#4 (ofReg r) 0x0#4 0x1#4
  | .ince r => fmtRR 0xD#4 (ofReg r) 0x1#4 0x1#4
  | .incl r => fmtRR 0xD#4 (ofReg r) 0x4#4 0x1#4
  | .incle r => fmtRR 0xD#4 (ofReg r) 0x5#4 0x1#4
  | .incg r => fmtRR 0xD#4 (ofReg r) 0x2#4 0x1#4
  | .incge r => fmtRR 0xD#4 (ofReg r) 0x3#4 0x1#4
  | .incne r => fmtRR 0xD#4 (ofReg r) 0x6#4 0x1#4
  | .inca r => fmtRR 0xD#4 (ofReg r) 0x7#4 0x1#4
  | .com r => fmtRR 0xD#4 (ofReg r) 0x0#4 0x2#4
  | .come r => fmtRR 0xD#4 (ofReg r) 0x1#4 0x2#4
  | .coml r => fmtRR 0xD#4 (ofReg r) 0x4#4 0x2#4
  | .comle r => fmtRR 0xD#4 (ofReg r) 0x5#4 0x2#4
  | .comg r => fmtRR 0xD#4 (ofReg r) 0x2#4 0x2#4
  | .comge r => fmtRR 0xD#4 (ofReg r) 0x3#4 0x2#4
  | .comne r => fmtRR 0xD#4 (ofReg r) 0x6#4 0x2#4
  | .coma r => fmtRR 0xD#4 (ofReg r) 0x7#4 0x2#4
  | .neg r => fmtRR 0xD#4 (ofReg r) 0x0#4 0x3#4
  | .nege r => fmtRR 0xD#4 (ofReg r) 0x1#4 0x3#4
  | .negl r => fmtRR 0xD#4 (ofReg r) 0x4#4 0x3#4
  | .negle r => fmtRR 0xD#4 (ofReg r) 0x5#4 0x3#4
  | .negg r => fmtRR 0xD#4 (ofReg r) 0x2#4 0x3#4
  | .negge r => fmtRR 0xD#4 (ofReg r) 0x3#4 0x3#4
  | .negne r => fmtRR 0xD#4 (ofReg r) 0x6#4 0x3#4
  | .nega r => fmtRR 0xD#4 (ofReg r) 0x7#4 0x3#4
  | .tst r => fmtRR 0xD#4 (ofReg r) 0x0#4 0x4#4
  | .tste r => fmtRR 0xD#4 (ofReg r) 0x1#4 0x4#4
  | .tstl r => fmtRR 0xD#4 (ofReg r) 0x4#4 0x4#4
  | .tstle r => fmtRR 0xD#4 (ofReg r) 0x5#4 0x4#4
  | .tstg r => fmtRR 0xD#4 (ofReg r) 0x2#4 0x4#4
  | .tstge r => fmtRR 0xD#4 (ofReg r) 0x3#4 0x4#4
  | .tstne r => fmtRR 0xD#4 (ofReg r) 0x6#4 0x4#4
  | .tsta r => fmtRR 0xD#4 (ofReg r) 0x7#4 0x4#4
  | .zr r => fmtRR 0xD#4 (ofReg r) 0x0#4 0x5#4
  | .zre r => fmtRR 0xD#4 (ofReg r) 0x1#4 0x5#4
  | .zrl r => fmtRR 0xD#4 (ofReg r) 0x4#4 0x5#4
  | .zrle r => fmtRR 0xD#4 (ofReg r) 0x5#4 0x5#4
  | .zrg r => fmtRR 0xD#4 (ofReg r) 0x2#4 0x5#4
  | .zrge r => fmtRR 0xD#4 (ofReg r) 0x3#4 0x5#4
  | .zrne r => fmtRR 0xD#4 (ofReg r) 0x6#4 0x5#4
  | .zra r => fmtRR 0xD#4 (ofReg r) 0x7#4 0x5#4
  | .abv r => fmtRR 0xD#4 (ofReg r) 0x0#4 0x6#4
  | .abve r => fmtRR 0xD#4 (ofReg r) 0x1#4 0x6#4
  | .abvl r => fmtRR 0xD#4 (ofReg r) 0x4#4 0x6#4
  | .abvle r => fmtRR 0xD#4 (ofReg r) 0x5#4 0x6#4
  | .abvg r => fmtRR 0xD#4 (ofReg r) 0x2#4 0x6#4
  | .abvge r => fmtRR 0xD#4 (ofReg r) 0x3#4 0x6#4
  | .abvne r => fmtRR 0xD#4 (ofReg r) 0x6#4 0x6#4
  | .abva r => fmtRR 0xD#4 (ofReg r) 0x7#4 0x6#4
  | .slo r => fmtRR 0xD#4 (ofReg r) 0x8#4 0x4#4
  | .sloe r => fmtRR 0xD#4 (ofReg r) 0x9#4 0x4#4
  | .slol r => fmtRR 0xD#4 (ofReg r) 0xC#4 0x4#4
  | .slole r => fmtRR 0xD#4 (ofReg r) 0xD#4 0x4#4
  | .slog r => fmtRR 0xD#4 (ofReg r) 0xA#4 0x4#4
  | .sloge r => fmtRR 0xD#4 (ofReg r) 0xB#4 0x4#4
  | .slone r => fmtRR 0xD#4 (ofReg r) 0xE#4 0x4#4
  | .sloa r => fmtRR 0xD#4 (ofReg r) 0xF#4 0x4#4
  | .rex r => fmtRR 0xD#4 (ofReg r) 0x0#4 0x7#4
  | .mr r b => fmtRB 0xD#4 (ofReg r) (ofCount b) 0x8#4
  | .ml r b => fmtRB 0xD#4 (ofReg r) (ofCount b) 0x9#4
  | .ce r1 r2 => fmtRR 0xD#4 (ofReg r1) (ofReg r2) 0xA#4
  | .cne r1 r2 => fmtRR 0xD#4 (ofReg r1) (ofReg r2) 0xB#4
  | .cei r n => fmtRN 0xD#4 (ofReg r) n 0xC#4
  | .cnei r n => fmtRN 0xD#4 (ofReg r) n 0xD#4
  | .cemi r n => fmtRN 0xD#4 (ofReg r) n 0xE#4
  | .cnemi r n => fmtRN 0xD#4 (ofReg r) n 0xF#4
  | .push r1 r2 => fmtRR 0x7#4 (ofReg r1) (ofReg r2) 0x0#4
  | .pop r1 r2 => fmtRR 0x7#4 (ofReg r1) (ofReg r2) 0x1#4
  | .ipush r1 r2 => fmtRR 0x7#4 (ofReg r1) (ofReg r2) 0x4#4
  | .ipop r1 r2 => fmtRR 0x7#4 (ofReg r1) (ofReg r2) 0x5#4
  | .pushi r1 r2 => fmtRR 0x7#4 (ofReg r1) (ofReg r2) 0x6#4
  | .popi r1 r2 => fmtRR 0x7#4 (ofReg r1) (ofReg r2) 0x7#4
  | .dpush r1 r2 => fmtRR 0x7#4 (ofReg r1) (ofReg r2) 0x8#4
  | .dpop r1 r2 => fmtRR 0x7#4 (ofReg r1) (ofReg r2) 0x9#4
  | .pushd r1 r2 => fmtRR 0x7#4 (ofReg r1) (ofReg r2) 0xA#4
  | .popd r1 r2 => fmtRR 0x7#4 (ofReg r1) (ofReg r2) 0xB#4
  | .regj r n => fmtRN 0x7#4 (ofReg r) n 0xC#4
  | .regpj r n => fmtRN 0x7#4 (ofReg r) n 0xD#4
  | .regjs r n => fmtRN 0x7#4 (ofReg r) n 0xE#4
  | .iot r dev => fmtAddr 0xF#4 (ofReg r) dev
  | .locla da => fmtRR 0x4#4 0x0#4 (ofReg da) 0x6#4
  | .loclr da => fmtRR 0x4#4 0x1#4 (ofReg da) 0x6#4
  | .loclsa da => fmtRR 0x4#4 0x2#4 (ofReg da) 0x6#4
  | .loclsr da => fmtRR 0x4#4 0x3#4 (ofReg da) 0x6#4
  | .lomma da => fmtRR 0x4#4 0x4#4 (ofReg da) 0x6#4
  | .lommr da => fmtRR 0x4#4 0x5#4 (ofReg da) 0x6#4
  | .lommp da => fmtRR 0x4#4 0x6#4 (ofReg da) 0x6#4
  | .lomdr => fmtRR 0x4#4 0x7#4 0x0#4 0x6#4
  | .stcl da => fmtRR 0xC#4 0x0#4 (ofReg da) 0x6#4
  | .stmm da => fmtRR 0xC#4 0x4#4 (ofReg da) 0x6#4
  | .nomm => fmtRR 0xC#4 0x5#4 0x0#4 0x6#4
  | .popmm da => fmtRR 0xC#4 0x6#4 (ofReg da) 0x6#4
  | .stmdr => fmtRR 0xC#4 0x7#4 0x0#4 0x6#4
  | .rtcla da => fmtRR 0x4#4 0x0#4 (ofReg da) 0x7#4
  | .rtclr da => fmtRR 0x4#4 0x1#4 (ofReg da) 0x7#4
  | .rtclsa da => fmtRR 0x4#4 0x2#4 (ofReg da) 0x7#4
  | .rtclsr da => fmtRR 0x4#4 0x3#4 (ofReg da) 0x7#4
  | .rtmm da => fmtRR 0x4#4 0x4#4 (ofReg da) 0x7#4
  | .rtmms da => fmtRR 0x4#4 0x5#4 (ofReg da) 0x7#4
  | .rtmdr => fmtRR 0x4#4 0x7#4 0x0#4 0x7#4
  | .skcl da => fmtRR 0xC#4 0x0#4 (ofReg da) 0x7#4
  | .skmm da => fmtRR 0xC#4 0x4#4 (ofReg da) 0x7#4
  | .skmms da => fmtRR 0xC#4 0x5#4 (ofReg da) 0x7#4
  | .pushmm da => fmtRR 0xC#4 0x6#4 (ofReg da) 0x7#4
  | .skmdr => fmtRR 0xC#4 0x7#4 0x0#4 0x7#4
  | .td f1 f2 => fmtRR 0x4#4 (0#1 ++ ofFsm1 f1) (0#1 ++ ofFsm2 f2) 0xE#4
  | .tdr f1 f2 => fmtRR 0x4#4 (0#1 ++ ofFsm1 f1) (1#1 ++ ofFsm2 f2) 0xE#4
  | .tdi f1 f2 => fmtRR 0xC#4 (0#1 ++ ofFsm1 f1) (0#1 ++ ofFsm2 f2) 0xE#4
  | .tdir f1 f2 => fmtRR 0xC#4 (0#1 ++ ofFsm1 f1) (1#1 ++ ofFsm2 f2) 0xE#4
  | .tdix f1 f2 => fmtRR 0xC#4 (1#1 ++ ofFsm1 f1) (0#1 ++ ofFsm2 f2) 0xE#4
  | .tdixr f1 f2 => fmtRR 0xC#4 (1#1 ++ ofFsm1 f1) (1#1 ++ ofFsm2 f2) 0xE#4
  | .mmd f1 => fmtRR 0x4#4 (0#1 ++ ofFsm1 f1) 0x2#4 0xF#4
  | .mmdr f1 => fmtRR 0x4#4 (0#1 ++ ofFsm1 f1) 0xA#4 0xF#4
  | .sd i x man addr => fmtAddr (jmpClass i x) (ofManner man) addr
  | .rlocla da x => fmtRR 0x4#4 0x0#4 (ofReg da) (xFn x)
  | .rloclr da x => fmtRR 0x4#4 0x1#4 (ofReg da) (xFn x)
  | .rlomma da x => fmtRR 0x4#4 0x4#4 (ofReg da) (xFn x)
  | .rlommr da x => fmtRR 0x4#4 0x5#4 (ofReg da) (xFn x)
  | .rlommp da x => fmtRR 0x4#4 0x6#4 (ofReg da) (xFn x)
  | .rstcl da x => fmtRR 0xC#4 0x0#4 (ofReg da) (xFn x)
  | .rstmm da x => fmtRR 0xC#4 0x4#4 (ofReg da) (xFn x)
  | .rlomdr x => fmtRR 0x4#4 0x7#4 0x0#4 (xFn x)
  | .rstmdr x => fmtRR 0xC#4 0x7#4 0x0#4 (xFn x)
  | .rd f1 f2 x => fmtRR 0x4#4 (0#1 ++ ofFsm1 f1) (0#1 ++ ofFsm2 f2) (rdFn x)
  | .nop => fmtRR 0xD#4 0x0#4 0x0#4 0x4#4
  | .sleep => fmtAddr 0xF#4 0x0#4 0x0008#16
  | .popj => fmtRN 0x7#4 0x4#4 0#12 0xE#4
  | .popjof n => fmtRN 0x7#4 0x4#4 n 0xE#4
  | .ashl r b => fmtRB 0x5#4 (ofReg r) (ofCount b) 0x3#4
  | .ashld r b => fmtRB 0x5#4 (ofReg r) (ofCount b) 0x7#4

/-- The instruction the decoder reads from a word whose bits are `w`, bit 0 of `w` being the least significant bit of
the machine's word. Instructions have one word (R102), so bits above the 24th belong to none. -/
def decodeTableWord (nbits w : Nat) : Option Instr :=
  (decode (BitVec.ofNat 24 (w % 2 ^ nbits))).toOption

end Sys2Proof
end

