-- ==== Sys2Proof/Config.lean ====
section
/-!
DEFINITION. The values the spec leaves open, as constants without a body: nothing in Lean can
evaluate them or prove a value of them. Each is named in an entry of the assumption log.
-/

namespace Sys2Proof.Config

/-- The free values (log 50): the value of the model's counter picks one. Used wherever the spec says
that a result is unconstrained (93_implementation_defined.md U8, R557, R575) or open (R560). -/
opaque freeWord : Nat → Word

/-- The rounding of the Matrix Multiplier's fractional product when the parameter `arith` is
`unspecified`: whether an inexact product is rounded up (R534, R536; log 21). -/
opaque roundUp : Word → Word → Bool

/-- The accumulation of products when the parameter `arith` is `unspecified` (R536; log 21). -/
opaque accumulate : List Word → Word

/-- The relocation of a user-mode address by the BAR, which the manual does not give (R115, D12; log 13). -/
opaque relocate : Word → Word → Word

/-- The hard-wired address of the high-level interrupt (R117, D1; log 5). -/
opaque vecHi : Word

/-- The hard-wired address of the low-level interrupt (R117, D1; log 5). -/
opaque vecLo : Word

/-- The words a pipeline unit sends to memory when the parameter `arith` is `unspecified`: Figure 4.6
and the Matrix Multiplier's format figure are lost (R546, R555; log 46). -/
opaque outputWords : Nat → List Word

end Sys2Proof.Config
end

