-- ==== Sys2Proof/Machine/State.lean ====
section
/-!
DEFINITION. The state of the LDS-2 as plain data: every piece of state the spec names (INVENTORY.md, '## State'),
the parameters of 93_implementation_defined.md section 3, the pending events of the other agents, and the state
after reset.
-/

namespace Sys2Proof.Machine

/-- What stops the machine: nothing. Every error of the LDS-2 is a bit of the INTERRUPT CONDITIONS register and perhaps
an interrupt (R600, R601), so there is no constructor and no step ends in a fault. -/
inductive Fault
deriving DecidableEq, Repr

/-- No meaning for an instruction. -/
inductive Refusal
  /-- Raised by an arm of `exec` whose instruction has no meaning yet; every instruction has one, so nothing raises it.
  Safe: the machine stops instead of doing something else. -/
  | notModelled (mnemonic : String)
deriving DecidableEq, Repr

/-- The two modes of the Channel Control (R42). -/
inductive Mode
  | executive | user
deriving DecidableEq, Repr

/-- The dimension modes of DIR bits 5 and 6 (R51, R493). -/
inductive Dim
  | twoD | homog | mm3d | cd3d
deriving DecidableEq, Repr

/-- The conditions of the INTERRUPT CONDITIONS register (R601). -/
inductive Cond
  | scopeViolation | memoryProtection | unimplemented | nonexistentMemory | nonexistentDevice
  | realTimeClock | writeCount | overflow | parity
deriving DecidableEq, Repr

/-- The five drawing operations (R491). -/
inductive DrawOp
  | setPoint | drawTo | drawFrom | dot | box
deriving DecidableEq, Repr

/-- The three data forms (R492). -/
inductive Form
  | absolute | relative | variableOrigin
deriving DecidableEq, Repr

/-- The NW words of one transfer: two in 2D, four in the 3D modes (R424, R493). -/
inductive Tuple
  | two (d0 d1 : Word)
  | four (d0 d1 d2 d3 : Word)
deriving DecidableEq, Repr

/-- A drawing command in the pipeline's queue (R430), with the snapshot of DIR bits 2 to 6 taken when it was sent
(R531, R693, D48). `data = none` is the dataless draw of MMD and MMDR (R509). -/
structure Command where
  op : DrawOp
  form : Form
  data : Option Tuple
  mma : Bool
  cda : Bool
  nov : Bool
  dim : Dim
deriving DecidableEq, Repr

/-- MDIR, the Matrix Multiplier Directive register (R77, R545). -/
structure Mdir where
  moc : Bool
  mom : Bool
  curve : Bool
  tr1 : Bool
  tr0 : Bool
  q : Word
deriving DecidableEq, Repr

/-- A four-word Clipping Divider register: two two-word registers (R81). -/
structure Quad where
  c0 : Word
  c1 : Word
  c2 : Word
  c3 : Word
deriving DecidableEq, Repr

/-- CDIR, the Clipping Divider directive register (R85, R562). -/
structure Cdir where
  stos : Bool
  stom : Bool
  ztos : Bool
  ptom : Bool
  ntom : Bool
  curve : Bool
  mef : Bool
  dashed : Bool
  selfX : Bool
  selfY : Bool
deriving DecidableEq, Repr

/-- The registers of the Clipping Divider (R81 to R87). -/
structure ClipDiv where
  save : Quad
  view : Quad
  wind : Quad
  inst : Quad
  name : Word × Word
  cdir : Cdir
  hitang : Word × Word
  select : BitVec 8
  permit : BitVec 8
  intensity : Word
deriving DecidableEq, Repr

/-- MOVE or DRAW (R93, R580). -/
inductive EmitKind
  | move | draw
deriving DecidableEq, Repr

/-- One command to the Line Generator: where the beam goes, with the source of its intensity, the scopes selected and
permitted, and DASHED LINE (R580 to R582). -/
structure Emit where
  kind : EmitKind
  x : Word
  y : Word
  z : Word
  select : BitVec 8
  permit : BitVec 8
  dashed : Bool
deriving DecidableEq, Repr

/-- The four clock sources (R58, R630). -/
inductive ClockSource
  | external | host | sixtyHertz | adjustable
deriving DecidableEq, Repr

/-- One action of an agent other than the Channel Control (R15; log 52). -/
inductive AgentEvent
  /-- One step of the pipeline agent (R530). -/
  | pipeline
  /-- One tick of a clock source (R630). -/
  | tick (source : ClockSource)
  /-- The host reads a word of the shared memory, at an absolute address (R126, R645). -/
  | hostRead (a : Word)
  /-- The host writes a word of the shared memory, at an absolute address (R126, R645). -/
  | hostWrite (a : Word) (v : Word)
  /-- The host writes its side of the host register: bits 19, 20, 22 and 23 of the word (R641). -/
  | hostRegister (v : Word)
  /-- The operator sets the console switches (R61). -/
  | switches (v : Word)
deriving DecidableEq, Repr

/-- What the other agents do while the machine does one thing: one list of actions for each point at which they may act, in order (R114,
R126; log 16, 17). -/
abbrev Turns := List (List AgentEvent)

/-- One event of the machine: a cycle of the Channel Control, or an action of another agent, each with what the other agents do between
its memory accesses (R15, R114, R126; log 52). -/
inductive Input
  /-- One Channel Control cycle. -/
  | cycle (turns : Turns)
  /-- One action of another agent. Of these only a pipeline step makes more than one memory access. -/
  | agent (turns : Turns) (e : AgentEvent)
deriving DecidableEq, Repr

/-- The parameter `Relocate` (R115, D12): the open function, or no relocation. -/
inductive Relocation
  | free | identity
deriving DecidableEq, Repr

/-- The pipeline's arithmetic, `MMFn` and `CDFn` (R536, R560): the spec's reference definitions, or nothing beyond the
constraints the manual states. -/
inductive Arith
  | reference | unspecified
deriving DecidableEq, Repr

/-- `MDIR_LAYOUT`: the bits J and K of each directive bit in the first word (R545, D41). -/
structure MdirLayout where
  moc : Nat × Nat
  mom : Nat × Nat
  curve : Nat × Nat
  tr1 : Nat × Nat
  tr0 : Nat × Nat
deriving DecidableEq, Repr

/-- The parameters of 93_implementation_defined.md section 3. No step changes them; a statement over every state is a
statement over every choice of them. -/
structure Params where
  /-- MEMSIZE (R120): words that exist. -/
  memSize : Nat
  /-- VEC_HI (R117). -/
  vecHi : Word
  /-- VEC_LO (R117). -/
  vecLo : Word
  /-- IMR_HI_BIT (R56). -/
  imrHiBit : Nat
  /-- IMR_LO_BIT (R56). -/
  imrLoBit : Nat
  /-- Relocate (R115). -/
  relocation : Relocation
  /-- ParityBad (R121): the physical addresses whose word has bad parity. -/
  parityBad : List Nat
  /-- WC_STOPS_OUTPUT (R127). -/
  wcStopsOutput : Bool
  /-- STACK_FN_BIT22_DONTCARE (R158). -/
  stackBit22 : Bool
  /-- OVERFLOW_UNARY (R607). -/
  overflowUnary : Bool
  /-- IOT_DEV_HIGH_IGNORED (R383). -/
  iotDevHighIgnored : Bool
  /-- ION_CLEARS = innermost (R621). -/
  ionInnermost : Bool
  /-- MMFn and CDFn (R536, R560). -/
  arith : Arith
  /-- MDIR_LAYOUT (R545). -/
  mdirLayout : MdirLayout
deriving DecidableEq, Repr

/-- The machine. -/
structure State where
  /-- The sixteen Channel Control registers (R30). -/
  regs : Vector Word 16
  /-- The program counter (R40). -/
  pc : Word
  /-- Executive or user mode (R42). -/
  mode : Mode
  /-- PEND_USER (R43). -/
  pendUser : Bool
  /-- PEND_ION (R44). -/
  pendIon : Bool
  /-- LOCK_LO (R44). -/
  lockLo : Bool
  /-- LOCK_HI (R44). -/
  lockHi : Bool
  /-- SLEEPING (R45); also bit 21, Stop State, of the host register (R644). -/
  sleeping : Bool
  /-- PROT_FF (R46). -/
  protFF : Bool
  /-- XW and its pending flag (R236). -/
  xw : Option Word
  /-- The model's own: the instruction being executed, or output of the pipeline, has raised a condition, so that test point (B) of R610
  follows when it ends (log 53, 66). -/
  raised : Bool
  /-- The model's own: the level entered last, read under ION_CLEARS = innermost only (R621; log 57). -/
  lastEntryHigh : Bool
  /-- DIRECTIVE (R51); bit 23, SETTLED, is kept 0 here and read as "the queue is empty" (R573). -/
  dir : Word
  /-- REPEAT STATUS (R53). -/
  rsr : Word
  /-- INTERRUPT CONDITIONS (R55). -/
  icr : Word
  /-- INTERRUPT MASK (R56). -/
  imr : Word
  /-- I/O DEVICE CODE ERROR: the 8 bits that are described; the others read 0 (R57, U5; log 58). -/
  iodce : BitVec 8
  /-- SYNC MASK (R58). -/
  sync : Word
  /-- PROTECTION (R59). -/
  protection : Word
  /-- BANK ADDRESS (R60). -/
  bar : Word
  /-- Console SWITCHES (R61). -/
  switches : Word
  /-- Console LIGHTS (R61). -/
  lights : Word
  /-- Bit 19, Attention, of the host register (R62, R75). -/
  attention : Bool
  /-- Bit 20, Attention Interrupt Mask, of the host register (R75). -/
  attentionMask : Bool
  /-- Bit 22, Stop-State Interrupt Mask, of the host register (R75). -/
  stopMask : Bool
  /-- Bit 23, LDS-2 Interrupt, of the host register (R75). -/
  hostInterrupt : Bool
  /-- The matrix array, storage register (m, r, c) at 16 m + 4 r + c (R76, R544). -/
  mm : Vector Word 64
  /-- MDIR (R77). -/
  mdir : Mdir
  /-- The Clipping Divider's registers (R81 to R87). -/
  cd : ClipDiv
  /-- Drawing commands sent and not yet applied, oldest first (R430). -/
  queue : List Command
  /-- What the Line Generator has been sent, newest first (R580). -/
  scope : List Emit
  /-- The shared memory (R100): byte k of word p at 3 p + k, high-order byte first (log 3). -/
  mem : List Host.Cell
  /-- The parameters of the model. -/
  params : Params
  /-- The events that come before the next default cycle (log 52). -/
  inputs : List Input
  /-- What the other agents do in the rest of the present cycle, one list for each point between two memory accesses or iterations
  (R114, R126; log 16, 17). -/
  turns : Turns
  /-- The words the host has read from memory, newest first (R126, R645; log 52). -/
  hostSeen : List Word
  /-- The counter of free values (log 50). -/
  freeIx : Nat
deriving DecidableEq, Repr

/-- The defaults of 93_implementation_defined.md section 3. That section gives none for MEMSIZE, VEC_HI, VEC_LO and
Relocate: all 2^24 words exist (log 4), the vectors are constants without a value (log 5), the relocation is
the open function (log 13). -/
def Params.default : Params where
  memSize := 16777216
  vecHi := Config.vecHi
  vecLo := Config.vecLo
  imrHiBit := 16
  imrLoBit := 17
  relocation := .free
  parityBad := []
  wcStopsOutput := false
  stackBit22 := false
  overflowUnary := false
  iotDevHighIgnored := false
  ionInnermost := false
  arith := .reference
  mdirLayout := { moc := (0, 1), mom := (2, 3), curve := (4, 5), tr1 := (6, 7), tr0 := (8, 9) }

/-- The Clipping Divider with every register 0 (log 1). -/
def ClipDiv.zero : ClipDiv where
  save := { c0 := 0, c1 := 0, c2 := 0, c3 := 0 }
  view := { c0 := 0, c1 := 0, c2 := 0, c3 := 0 }
  wind := { c0 := 0, c1 := 0, c2 := 0, c3 := 0 }
  inst := { c0 := 0, c1 := 0, c2 := 0, c3 := 0 }
  name := (0, 0)
  cdir := { stos := false, stom := false, ztos := false, ptom := false, ntom := false,
            curve := false, mef := false, dashed := false, selfX := false, selfY := false }
  hitang := (0, 0)
  select := 0
  permit := 0
  intensity := 0

/-- A state with every register, memory byte and hidden flag 0: what `State.reset` takes for the items that R671 leaves unconstrained
(R95, D2; log 1). -/
def State.zero : State where
  regs := Vector.replicate 16 0
  pc := 0
  mode := .executive
  pendUser := false
  pendIon := false
  lockLo := false
  lockHi := false
  sleeping := false
  protFF := false
  xw := none
  raised := false
  lastEntryHigh := false
  dir := 0
  rsr := 0
  icr := 0
  imr := 0
  iodce := 0
  sync := 0
  protection := 0
  bar := 0
  switches := 0
  lights := 0
  attention := false
  attentionMask := false
  stopMask := false
  hostInterrupt := false
  mm := Vector.replicate 64 0
  mdir := { moc := false, mom := false, curve := false, tr1 := false, tr0 := false, q := 0 }
  cd := ClipDiv.zero
  queue := []
  scope := []
  mem := []
  params := Params.default
  inputs := []
  turns := []
  hostSeen := []
  freeIx := 0

/-- `ColdStart(mem, vec)` (R671): software has been loaded into `mem`, with the vectors at `vecHi` and `vecLo`, and the machine put to
sleep. Every item that R671 does not name is that of `base`, PC and the other bits of IMR included. -/
def State.coldStart (base : State) (mem : List Host.Cell) (vecHi vecLo : Word) : State :=
  { base with
    mem := mem
    params := { base.params with vecHi := vecHi, vecLo := vecLo }
    mode := .executive
    sleeping := true
    lockLo := false
    lockHi := false
    pendUser := false
    pendIon := false
    protFF := false
    xw := none
    imr := setBitAt base.imr base.params.imrHiBit true
    icr := 0
    hostInterrupt := false
    attention := false
    queue := []
    raised := false
    turns := [] }

/-- `RunAt(a, mem)` (R671): as ColdStart, but awake, with PC at `a` and no mask. -/
def State.runAt (base : State) (a : Word) (mem : List Host.Cell) : State :=
  { base.coldStart mem base.params.vecHi base.params.vecLo with sleeping := false, pc := a, imr := 0 }

/-- The machine right after reset: RunAt of R671 at address 0 with nothing in memory and every item that RunAt leaves unconstrained 0
(R95, D2; log 1). -/
def State.reset : State := State.zero.runAt 0 []

end Sys2Proof.Machine
end

