-- ==== Sys2Proof/Machine/Memory.lean ====
section
/-!
DEFINITION. The shared memory (R100): a list of cells in one canonical form, and the words built from it.
Word p is the three cells 3 p, 3 p + 1, 3 p + 2, high-order byte first; no instruction can see this layout (R112; log 3).
-/

namespace Sys2Proof.Machine

/-- What a byte that is not listed reads as (log 3). -/
def Memory.unlisted : Byte := 0

/-- One byte of memory. -/
def Memory.readByte : List Host.Cell → Nat → Byte
  | [], _ => Memory.unlisted
  | (k, b) :: rest, a => if k = a then b else Memory.readByte rest a

/-- Memory with one byte replaced, in canonical form. -/
def Memory.writeByte : List Host.Cell → Nat → Byte → List Host.Cell
  | [], a, v => if v = Memory.unlisted then [] else [(a, v)]
  | (k, b) :: rest, a, v =>
    if a < k then (if v = Memory.unlisted then (k, b) :: rest else (a, v) :: (k, b) :: rest)
    else if a = k then (if v = Memory.unlisted then rest else (a, v) :: rest)
    else (k, b) :: Memory.writeByte rest a v

/-- The canonical form: addresses strictly rising, no entry that equals what an unlisted address reads as. -/
def Memory.wf : List Host.Cell → Bool
  | [] => true
  | (k, b) :: rest => b != Memory.unlisted && rest.all (fun c => decide (k < c.1)) && Memory.wf rest

/-- The word at physical word address `p` (R100). -/
def Memory.readWord (m : List Host.Cell) (p : Nat) : Word :=
  Memory.readByte m (3 * p) ++ Memory.readByte m (3 * p + 1) ++ Memory.readByte m (3 * p + 2)

/-- Memory with the word at physical word address `p` replaced (R111). -/
def Memory.writeWord (m : List Host.Cell) (p : Nat) (v : Word) : List Host.Cell :=
  Memory.writeByte (Memory.writeByte (Memory.writeByte m (3 * p) (v.extractLsb' 16 8))
    (3 * p + 1) (v.extractLsb' 8 8)) (3 * p + 2) (v.extractLsb' 0 8)

end Sys2Proof.Machine
end

