-- ==== Sys2Proof/Machine/Ops.lean ====
section
/-!
DEFINITION. The named operations over the state: registers, conditions, memory accesses, pipeline output to memory,
taking an interrupt and the deferred effects of the jump that ends one (R13, R110 to R127, R600 to R622).
-/

namespace Sys2Proof.Machine

/-! ### Registers and the program counter (R13) -/

/-- `R[r]` (R13). -/
def State.reg (s : State) (r : Reg) : Word := s.regs[r.val]

/-- `R[r] <- v` (R13). -/
def State.setReg (s : State) (r : Reg) (v : Word) : State := { s with regs := s.regs.set r.val v }

/-- `PC <- v` (R13). -/
def State.setPc (s : State) (v : Word) : State := { s with pc := v }

/-- A skip: `PC <- PC + 1` on top of the normal advance (R103). -/
def State.skip (s : State) : State := s.setPc (s.pc + 1)

/-- A skip if `c` (R103). -/
def State.skipIf (s : State) (c : Bool) : State := if c then s.skip else s

/-! ### Conditions (R55, R601, R602) -/

/-- The bit of a condition in the INTERRUPT CONDITIONS register (R601). -/
def Cond.bit : Cond → Nat
  | .scopeViolation => 6
  | .memoryProtection => 7
  | .unimplemented => 17
  | .nonexistentMemory => 18
  | .nonexistentDevice => 19
  | .realTimeClock => 20
  | .writeCount => 21
  | .overflow => 22
  | .parity => 23

/-- A condition is recorded: its ICR bit, and PROT_FF for a protection violation (R602, R606). A clock tick does no more than this
(R630; log 66). -/
def State.record (s : State) (c : Cond) : State :=
  { s with icr := setBitAt s.icr c.bit true, protFF := s.protFF || decide (c = .memoryProtection) }

/-- `raise` (R602): a condition is recorded, and the interrupt test of test point (B) is made when the instruction that raised it
ends or is abandoned (R610; log 53), or at once if the pipeline's output raised it between instructions (R604; log 66). -/
def State.raise (s : State) (c : Cond) : State := { s.record c with raised := true }

/-! ### The other agents (R15, R58, R126, R630, R641, R645) -/

/-- The bit of a clock source in SYNC (R58, R630). -/
def ClockSource.bit : ClockSource → Nat
  | .external => 19
  | .host => 20
  | .sixtyHertz => 21
  | .adjustable => 22

/-- A tick of a clock source (R630). -/
def State.tick (s : State) (c : ClockSource) : State := if bitAt s.sync c.bit then s.record .realTimeClock else s

/-- The host reads a word of memory, at an absolute address (R126, R645). DESIGN CHOICE: of an address at or above MEMSIZE it gets
no word, and no condition is recorded; R120, R126 and R645 do not say what such a read does (log 64). -/
def State.hostRead (s : State) (a : Word) : State :=
  if a.toNat < s.params.memSize then { s with hostSeen := Memory.readWord s.mem a.toNat :: s.hostSeen } else s

/-- The host writes a word of memory, at an absolute address (R126, R645). DESIGN CHOICE: a write at or above MEMSIZE is dropped and no
condition is recorded; R126 and R645 do not say what it does (log 64). -/
def State.hostWrite (s : State) (a v : Word) : State :=
  if a.toNat < s.params.memSize then { s with mem := Memory.writeWord s.mem a.toNat v } else s

/-- The host writes its side of the host register; bit 21 cannot be written (R641). DESIGN CHOICE: what it writes to the bits 0 to 18, which
R641 does not describe, is ignored (log 63). -/
def State.writeHostRegister (s : State) (v : Word) : State :=
  { s with attention := bitAt v 19, attentionMask := bitAt v 20, stopMask := bitAt v 22, hostInterrupt := bitAt v 23 }

/-- Of the other agents' actions the host's memory accesses: all that can happen between two memory accesses of one instruction and that
the instruction or the host can see (R114, R126; log 16). -/
def State.hostAccess (s : State) (e : AgentEvent) : State :=
  match e with
  | .pipeline => s
  | .tick _ => s
  | .hostRead a => s.hostRead a
  | .hostWrite a v => s.hostWrite a v
  | .hostRegister _ => s
  | .switches _ => s

/-- Every action of the other agents but a pipeline step (log 17). -/
def State.besidePipeline (s : State) (e : AgentEvent) : State :=
  match e with
  | .pipeline => s
  | .tick c => s.tick c
  | .hostRead a => s.hostRead a
  | .hostWrite a v => s.hostWrite a v
  | .hostRegister v => s.writeHostRegister v
  | .switches v => { s with switches := v }

/-- A point at which other agents act: the next list of actions is taken, if there is one (log 16, 17). -/
def State.popTurn (s : State) (act : State → AgentEvent → State) : State :=
  match s.turns with
  | [] => s
  | es :: rest => es.foldl act { s with turns := rest }

/-- Between two memory accesses of one instruction (R114, R126). -/
def State.gap (s : State) : State := s.popTurn State.hostAccess

/-- Between the fetch of an instruction and its execution (R15, R126). -/
def State.afterFetch (s : State) : State := s.popTurn State.besidePipeline

/-! ### Memory accesses (R110, R111, R115, R116, R120, R121) -/

/-- `Relocate(BAR, a)` (R115; log 13). -/
def relocate (r : Relocation) (bar a : Word) : Word :=
  match r with
  | .free => Config.relocate bar a
  | .identity => a

/-- `InBounds` (R116, D13): the 512-word page of the relocated address lies between the lower bounds (bits 16 to 23) and
the upper bounds (bits 8 to 15), both included. -/
def inBounds (protection p : Word) : Bool :=
  decide (fieldAt protection 16 23 ≤ p.toNat / 512) && decide (p.toNat / 512 ≤ fieldAt protection 8 15)

/-- The physical address of an access, or the condition it raises: relocation and protection in user mode, then
nonexistent memory (R110, D7). -/
def State.physical (s : State) (a : Word) : Except Cond Nat :=
  match s.mode with
  | .executive => if a.toNat < s.params.memSize then .ok a.toNat else .error .nonexistentMemory
  | .user =>
    let p := relocate s.params.relocation s.bar a
    if inBounds s.protection p then
      if p.toNat < s.params.memSize then .ok p.toNat else .error .nonexistentMemory
    else .error .memoryProtection

/-- `MemRead(a, 24)` (R110): the word, or the condition the access raises. -/
def State.memRead (s : State) (a : Word) : Except Cond Word :=
  match s.physical a with
  | .error c => .error c
  | .ok p => if p ∈ s.params.parityBad then .error .parity else .ok (Memory.readWord s.mem p)

/-- `MemWrite(a, 24, v)` (R111): the state after the write, or the condition; a write that raises changes nothing. -/
def State.memWrite (s : State) (a v : Word) : Except Cond State :=
  match s.physical a with
  | .error c => .error c
  | .ok p => .ok { s with mem := Memory.writeWord s.mem p v }

/-- Go on with the word at `a`, or abandon the instruction in the state it started from (R604, D25). -/
def State.withRead (s : State) (a : Word) (k : Word → State) : State :=
  match s.memRead a with
  | .ok v => k v
  | .error c => s.raise c

/-- Write `v` at `a` and go on, or abandon the instruction in the state it started from (R604, D25). -/
def State.withWrite (s : State) (a v : Word) (k : State → State) : State :=
  match s.memWrite a v with
  | .ok t => k t
  | .error c => s.raise c

/-- One word of pipeline output is recorded through WP (R127). A condition of the access is raised, the word is lost, and WP
and WC advance all the same (R604); the write count reaching zero is raised too (R127). Under WC_STOPS_OUTPUT a word that finds WC = 0
is dropped (D16). -/
def State.outputWord (s : State) (v : Word) : State :=
  if s.params.wcStopsOutput && decide (s.reg Reg.wc = 0) then s
  else
    let s1 := match s.memWrite (s.reg Reg.wp) v with
      | .ok t => t
      | .error c => s.raise c
    let s2 := (s1.setReg Reg.wp (s1.reg Reg.wp + 1)).setReg Reg.wc (s1.reg Reg.wc + 1)
    if s2.reg Reg.wc = 0 then s2.raise .writeCount else s2

/-- Words of pipeline output, in order. After each the host may act, before whatever access comes next: a further word, the output of
another unit or command, or the words of the instruction that waited for the pipeline (R114, R126, R127; log 16). -/
def State.outputWords (s : State) : List Word → State
  | [] => s
  | v :: ws => (s.outputWord v).gap.outputWords ws

/-! ### The status bits of DIRECTIVE (R51, R573) -/

/-- SETTLED: the command queue is empty (R573). -/
def State.settled (s : State) : Bool := s.queue.isEmpty

/-- DIRECTIVE as a read sees it, with SETTLED in bit 23 (R51, R401). -/
def State.dirRead (s : State) : Word := setBitAt s.dir 23 s.settled

/-- The load of DIRECTIVE: every bit but SETTLED (R401, D10). -/
def State.loadDir (s : State) (v : Word) : State := { s with dir := setBitAt v 23 false }

/-- MMA, DIR bit 2 (R51). -/
def State.mma (s : State) : Bool := bitAt s.dir 2

/-- CDA, DIR bit 3 (R51). -/
def State.cda (s : State) : Bool := bitAt s.dir 3

/-- NOV, DIR bit 4 (R51). -/
def State.nov (s : State) : Bool := bitAt s.dir 4

/-- The dimension mode of two bits (R51). -/
def dimOf (b5 b6 : Bool) : Dim :=
  match b5, b6 with
  | false, false => .twoD
  | false, true => .homog
  | true, false => .mm3d
  | true, true => .cd3d

/-- The dimension mode, DIR bits 5 and 6 (R51). -/
def State.dim (s : State) : Dim := dimOf (bitAt s.dir 5) (bitAt s.dir 6)

/-- Whether a dimension mode is 2D (R532). -/
def Dim.is2d : Dim → Bool
  | .twoD => true
  | .homog => false
  | .mm3d => false
  | .cd3d => false

/-! ### Interrupts (R606, R610, R612, R613) -/

/-- The low-level request (R610). -/
def State.lowRequest (s : State) : Bool :=
  [7, 18, 19, 20, 21, 22, 23].any (fun k => bitAt s.icr k && bitAt s.imr k)
    || (s.protFF && bitAt s.imr 7)
    || bitAt s.icr 6 || bitAt s.icr 17
    || (bitAt s.dir 7 && bitAt s.dir 21)

/-- The low-level interrupt can be taken (R610). -/
def State.lowTaken (s : State) : Bool :=
  s.lowRequest && bitAt s.imr s.params.imrLoBit && !s.lockLo && !s.sleeping

/-- The high-level interrupt can be taken (R610, R612). -/
def State.highTaken (s : State) : Bool :=
  s.hostInterrupt && bitAt s.imr s.params.imrHiBit && !s.lockHi

/-- The hard-wired address of a level (R117, R610). -/
def State.vector (s : State) (high : Bool) : Word := if high then s.params.vecHi else s.params.vecLo

/-- What taking an interrupt changes beside executing the vector word (R610): executive mode, the pending bits and sleep
cleared, a word left by XEQ or REX discarded (R236), the lock of the level set, and for the high level the host's bit
cleared. No register is saved here: the vector's PUSHJ pushes the PC. -/
def State.entered (s : State) (high : Bool) : State :=
  { s with
    mode := .executive
    pendUser := false
    pendIon := false
    sleeping := false
    xw := none
    raised := false
    lockHi := s.lockHi || high
    lockLo := s.lockLo || !high
    hostInterrupt := s.hostInterrupt && !high
    lastEntryHigh := high }

/-- Taking an interrupt (R610): the vector word, read in executive mode, is to be executed in the state entered, with the PC
as it stands. DESIGN CHOICE: if the vector word cannot be read its condition is recorded and nothing else happens; R610 does not say
(log 56). -/
def State.enter (s : State) (high : Bool) (run : Word → State → State) : State :=
  match ({ s with mode := .executive } : State).memRead (s.vector high) with
  | .ok w => run w (s.entered high).afterFetch
  | .error c => s.record c

/-! ### The return from an interrupt: the deferred IOTs (R611, R621, R622) -/

/-- "Enable interrupts" takes effect: both locks are cleared, or, under ION_CLEARS = innermost with both set, the lock of
the level entered last (R621, D30; log 57). -/
def State.unlock (s : State) : State :=
  if s.params.ionInnermost && s.lockLo && s.lockHi then
    if s.lastEntryHigh then { s with lockHi := false } else { s with lockLo := false }
  else { s with lockLo := false, lockHi := false }

/-- A jump instruction completes: a pending "enable interrupts" and a pending "set user mode" take effect (R237, R621,
R622). With POPJ this is the machine's return from an interrupt (R611). -/
def State.completeJump (s : State) : State :=
  let s1 := if s.pendIon then { s.unlock with pendIon := false } else s
  if s1.pendUser then { s1 with mode := .user, pendUser := false } else s1

/-! ### Free values (log 50) -/

/-- The `k`-th free value of the present operation. -/
def State.free (s : State) (k : Nat) : Word := Config.freeWord (s.freeIx + k)

/-- The present operation has used its block of `n` free values. -/
def State.useFree (s : State) (n : Nat) : State := { s with freeIx := s.freeIx + n }

/-! ### The host's view (R643, R644) -/

/-- HostIntA, a level (R643). -/
def State.hostIntAttention (s : State) : Bool := s.attention && s.attentionMask

/-- HostIntS, a level (R644). -/
def State.hostIntStop (s : State) : Bool := s.sleeping && s.stopMask

/-- The host register as the host reads it (R75, R641, R644). DESIGN CHOICE: bits 0 to 18, which R641 does not describe, read 0
(log 63). -/
def State.hostRegister (s : State) : Word :=
  setBitAt (setBitAt (setBitAt (setBitAt (setBitAt 0 19 s.attention) 20 s.attentionMask) 21 s.sleeping) 22 s.stopMask)
    23 s.hostInterrupt

end Sys2Proof.Machine
end

