-- ==== Sys2Proof/Machine/Flags.lean ====
section
/-!
DEFINITION. The conditions instructions test and the overflow they raise: carryout and borrow (R272), the Overflow condition (R273, R607) and
the eight relations with zero of the unary instructions (R309). The LDS-2 has no flag register (R41).
-/

namespace Sys2Proof.Machine

/-- Carryout of an addition: the unsigned sum is 2^24 or more (R272). -/
def carryOut (a b : Word) : Bool := decide (16777216 ≤ a.toNat + b.toNat)

/-- Borrow of a subtraction: the first operand is below the second as unsigned values (R272). -/
def borrow (a b : Word) : Bool := decide (a.toNat < b.toNat)

/-- The signed sum is not representable in 24 bits (R273). -/
def addOverflow (a b : Word) : Bool := decide ((a + b).toInt ≠ a.toInt + b.toInt)

/-- The signed difference is not representable in 24 bits (R273). -/
def subOverflow (a b : Word) : Bool := decide ((a - b).toInt ≠ a.toInt - b.toInt)

/-- The signed value times 2^b is not representable in 24 bits; used under OVERFLOW_UNARY only (R273, R607). -/
def shiftOverflow (v : Word) (b : Nat) : Bool := decide ((v <<< b).toInt ≠ v.toInt * 2 ^ b)

/-- The same for the 48 bits of a register pair; used under OVERFLOW_UNARY only (R273, R607). -/
def shiftOverflow48 (v : BitVec 48) (b : Nat) : Bool := decide ((v <<< b).toInt ≠ v.toInt * 2 ^ b)

/-- A condition raised by an instruction if `c` (R602). -/
def State.raiseIf (s : State) (c : Bool) (k : Cond) : State := if c then s.raise k else s

/-- The suffixes of the unary mnemonics: none, E, G, GE, L, LE, NE, A (R308, R309). -/
inductive Relation
  | never | eq | gt | ge | lt | le | ne | always
deriving DecidableEq, Repr

/-- The bits L, G, E of a suffix (R309). -/
def Relation.bits : Relation → Bool × Bool × Bool
  | .never => (false, false, false)
  | .eq => (false, false, true)
  | .gt => (false, true, false)
  | .ge => (false, true, true)
  | .lt => (true, false, false)
  | .le => (true, false, true)
  | .ne => (true, true, false)
  | .always => (true, true, true)

/-- Whether a value satisfies a suffix: the three bits act independently and are OR-ed (R309). -/
def Relation.holds (k : Relation) (v : Word) : Bool :=
  let b := k.bits
  (b.1 && bitAt v 0) || (b.2.1 && !bitAt v 0 && decide (v ≠ 0)) || (b.2.2 && decide (v = 0))

end Sys2Proof.Machine
end

