-- ==== Sys2Proof/Machine/Arith.lean ====
section
/-!
DEFINITION. Arithmetic and logical operations (43_arith_logical.md).
-/

namespace Sys2Proof.Machine

/-- Add `b` to a register: the wrapped sum, the skip on no carryout if asked for, then the Overflow condition (R270 to R273). -/
def State.addTo (s : State) (r : Reg) (b : Word) (skipNoCarry : Bool) : State :=
  ((s.setReg r (s.reg r + b)).skipIf (skipNoCarry && !carryOut (s.reg r) b)).raiseIf (addOverflow (s.reg r) b) .overflow

/-- Subtract `b` from a register: the wrapped difference, the skip on no borrow if asked for, then the Overflow condition (R270 to
R273). -/
def State.subFrom (s : State) (r : Reg) (b : Word) (skipNoBorrow : Bool) : State :=
  ((s.setReg r (s.reg r - b)).skipIf (skipNoBorrow && !borrow (s.reg r) b)).raiseIf (subOverflow (s.reg r) b) .overflow

/-- Deposit a logical result and skip if it is zero (R283, R285, R288). -/
def State.depositSkipZero (s : State) (r : Reg) (v : Word) : State := (s.setReg r v).skipIf (decide (v = 0))

/-- ADD (R274). -/
def execAdd (r1 r2 : Reg) (s : State) : Host.Outcome State Fault Refusal :=
  .next (s.addTo r1 (s.reg r2) false)

/-- ADDNC (R275). -/
def execAddnc (r1 r2 : Reg) (s : State) : Host.Outcome State Fault Refusal :=
  .next (s.addTo r1 (s.reg r2) true)

/-- SUB (R276). -/
def execSub (r1 r2 : Reg) (s : State) : Host.Outcome State Fault Refusal :=
  .next (s.subFrom r1 (s.reg r2) false)

/-- SUBNB (R277). -/
def execSubnb (r1 r2 : Reg) (s : State) : Host.Outcome State Fault Refusal :=
  .next (s.subFrom r1 (s.reg r2) true)

/-- ADDI (R278). -/
def execAddi (r : Reg) (n : BitVec 12) (s : State) : Host.Outcome State Fault Refusal :=
  .next (s.addTo r (zext n) false)

/-- ADDINC (R279). -/
def execAddinc (r : Reg) (n : BitVec 12) (s : State) : Host.Outcome State Fault Refusal :=
  .next (s.addTo r (zext n) true)

/-- SUBI (R280). -/
def execSubi (r : Reg) (n : BitVec 12) (s : State) : Host.Outcome State Fault Refusal :=
  .next (s.subFrom r (zext n) false)

/-- SUBINB (R281). -/
def execSubinb (r : Reg) (n : BitVec 12) (s : State) : Host.Outcome State Fault Refusal :=
  .next (s.subFrom r (zext n) true)

/-- OR (R282). -/
def execOr (r1 r2 : Reg) (s : State) : Host.Outcome State Fault Refusal :=
  .next (s.setReg r1 (s.reg r1 ||| s.reg r2))

/-- ORZ (R283). -/
def execOrz (r1 r2 : Reg) (s : State) : Host.Outcome State Fault Refusal :=
  .next (s.depositSkipZero r1 (s.reg r1 ||| s.reg r2))

/-- XOR (R284). -/
def execXor (r1 r2 : Reg) (s : State) : Host.Outcome State Fault Refusal :=
  .next (s.setReg r1 (s.reg r1 ^^^ s.reg r2))

/-- XORZ (R285). -/
def execXorz (r1 r2 : Reg) (s : State) : Host.Outcome State Fault Refusal :=
  .next (s.depositSkipZero r1 (s.reg r1 ^^^ s.reg r2))

/-- XORNZ (R286). -/
def execXornz (r1 r2 : Reg) (s : State) : Host.Outcome State Fault Refusal :=
  .next (s.skipIf (decide (s.reg r1 ^^^ s.reg r2 = 0)))

/-- AND (R287). -/
def execAnd (r1 r2 : Reg) (s : State) : Host.Outcome State Fault Refusal :=
  .next (s.setReg r1 (s.reg r1 &&& s.reg r2))

/-- ANDZ (R288). -/
def execAndz (r1 r2 : Reg) (s : State) : Host.Outcome State Fault Refusal :=
  .next (s.depositSkipZero r1 (s.reg r1 &&& s.reg r2))

/-- ANDNZ (R289). -/
def execAndnz (r1 r2 : Reg) (s : State) : Host.Outcome State Fault Refusal :=
  .next (s.skipIf (decide (s.reg r1 &&& s.reg r2 = 0)))

end Sys2Proof.Machine
end

