-- ==== Sys2Proof/Machine/Operands.lean ====
section
/-!
DEFINITION. Operand forms: the effective address of the paged formats (R104 to R107), the return stack (R220, R221) and the
stepped register addresses of the stack instructions (R245 to R247).
-/

namespace Sys2Proof.Machine

/-- `EA(I, X, ADDR)` (R104): the page of PC (after the advance, D6) joined to ADDR, one level of indirection, then the index. -/
def State.ea (s : State) (i x : Bool) (addr : BitVec 16) : Except Cond Word :=
  let d : Word := s.pc.extractLsb' 16 8 ++ addr
  let index (a : Word) : Word := if x then a + s.reg Reg.ir else a
  if i then
    match s.memRead d with
    | .ok a => .ok (index a)
    | .error c => .error c
  else .ok (index d)

/-- The state in which an instruction goes on after its effective address: after an indirect word other agents may act (R114, R126). -/
def State.afterEA (s : State) (i : Bool) : State := if i then s.gap else s

/-- Go on with the effective address, or abandon the instruction (R104, R604). -/
def State.withEA (s : State) (i x : Bool) (addr : BitVec 16) (k : State → Word → State) : State :=
  match s.ea i x addr with
  | .ok e => k (s.afterEA i) e
  | .error c => s.raise c

/-- `PushPC()` (R220), then go on: the old TOS stored below SP, SP stepped down, PC in TOS. -/
def State.pushPc (s : State) (k : State → State) : State :=
  s.withWrite (s.reg Reg.sp - 1) (s.reg Reg.tos) fun t =>
    k ((t.setReg Reg.sp (s.reg Reg.sp - 1)).setReg Reg.tos s.pc)

/-- The pop of the return stack after a jump to `target` (R221, R226): TOS from memory, SP stepped up. -/
def State.popTo (s : State) (target : Word) : State :=
  s.withRead (s.reg Reg.sp) fun v =>
    (((s.setPc target).setReg Reg.tos v).setReg Reg.sp (s.reg Reg.sp + 1)).completeJump

/-- A push with no step (R250). -/
def State.pushPlain (s : State) (r1 r2 : Reg) : State := s.withWrite (s.reg r2) (s.reg r1) id

/-- A push with the step `d` before it (R251, R253): with R1 = R2 the stepped value is stored (R246, D26). -/
def State.pushBefore (s : State) (r1 r2 : Reg) (d : Word) : State :=
  s.withWrite (s.reg r2 + d) (if r1 = r2 then s.reg r2 + d else s.reg r1) fun t => t.setReg r2 (s.reg r2 + d)

/-- A push with the step `d` after it (R252, R254). -/
def State.pushAfter (s : State) (r1 r2 : Reg) (d : Word) : State :=
  s.withWrite (s.reg r2) (s.reg r1) fun t => t.setReg r2 (s.reg r2 + d)

/-- A pop with no step (R255). -/
def State.popPlain (s : State) (r1 r2 : Reg) : State := s.withRead (s.reg r2) fun v => s.setReg r1 v

/-- A pop with the step `d` before it (R256, R258): with R1 = R2 the loaded word wins (R246, D26). -/
def State.popBefore (s : State) (r1 r2 : Reg) (d : Word) : State :=
  s.withRead (s.reg r2 + d) fun v => (s.setReg r2 (s.reg r2 + d)).setReg r1 v

/-- A pop with the step `d` after it (R257, R259): with R1 = R2 the loaded word is stepped (R246, D26). -/
def State.popAfter (s : State) (r1 r2 : Reg) (d : Word) : State :=
  s.withRead (s.reg r2) fun v => (s.setReg r1 v).setReg r2 ((s.setReg r1 v).reg r2 + d)

/-- One word up. -/
def stepUp : Word := 1

/-- One word down. -/
def stepDown : Word := 0xFFFFFF

end Sys2Proof.Machine
end

