-- ==== Sys2Proof/Machine/Control.lean ====
section
/-!
DEFINITION. Program control (41_program_control.md).
-/

namespace Sys2Proof.Machine

/-- J (R222). -/
def execJ (i x : Bool) (addr : BitVec 16) (s : State) : Host.Outcome State Fault Refusal :=
  .next (s.withEA i x addr fun t e => (t.setPc e).completeJump)

/-- PUSHJ (R223; the effective address is computed before the push). -/
def execPushj (i x : Bool) (addr : BitVec 16) (s : State) : Host.Outcome State Fault Refusal :=
  .next (s.withEA i x addr fun t e => t.pushPc fun u => (u.setPc e).completeJump)

/-- REGJ (R224). -/
def execRegj (r : Reg) (n : BitVec 12) (s : State) : Host.Outcome State Fault Refusal :=
  .next ((s.setPc (s.reg r + zext n)).completeJump)

/-- REGPJ (R225; R is read after the push). -/
def execRegpj (r : Reg) (n : BitVec 12) (s : State) : Host.Outcome State Fault Refusal :=
  .next (s.pushPc fun t => (t.setPc (t.reg r + zext n)).completeJump)

/-- REGJS (R226; R is read before the pop). -/
def execRegjs (r : Reg) (n : BitVec 12) (s : State) : Host.Outcome State Fault Refusal :=
  .next (s.popTo (s.reg r + zext n))

/-- POPJ (R227). -/
def execPopj (s : State) : Host.Outcome State Fault Refusal :=
  .next (s.popTo (s.reg Reg.tos))

/-- POPJOF (R228). -/
def execPopjof (n : BitVec 12) (s : State) : Host.Outcome State Fault Refusal :=
  .next (s.popTo (s.reg Reg.tos + zext n))

/-- XEQ (R230, R236: the word is executed in the next cycle, with PC as it is). -/
def execXeq (i x : Bool) (addr : BitVec 16) (s : State) : Host.Outcome State Fault Refusal :=
  .next (s.withEA i x addr fun t e => t.withRead e fun w => { t with xw := some w })

/-- REX (R231, R236: the word is executed in the next cycle, with PC as it is). -/
def execRex (r : Reg) (s : State) : Host.Outcome State Fault Refusal :=
  .next { s with xw := some (s.reg r) }

end Sys2Proof.Machine
end

