-- ==== Sys2Proof/Machine/MatrixMultiplier.lean ====
section
/-!
DEFINITION. The Matrix Multiplier: its fractional arithmetic, the addressing of its matrices, its directive register, and what it
does with a drawing command (R533 to R546).
-/

namespace Sys2Proof.Machine

/-! ### Arithmetic (R533 to R536) -/

/-- Bring a signed number to 24 bits (R13). -/
def wordOfInt (n : Int) : Word := BitVec.ofInt 24 n

/-- `FMul` (R534, R536): the product of two fractions. The reference definition rounds half up; the unspecified one leaves
open whether an inexact product is rounded down or up, which is all the manual's constraints allow. -/
def fmul (m : Arith) (a b : Word) : Word :=
  match m with
  | .reference => wordOfInt ((a.toInt * b.toInt + 4194304) / 8388608)
  | .unspecified =>
    let p := a.toInt * b.toInt
    let up : Int := if p % 8388608 = 0 then 0 else if Config.roundUp a b then 1 else 0
    wordOfInt (p / 8388608 + up)

/-- `Acc` (R536): the accumulation of products; the reference definition is the sum modulo 2^24. -/
def accumulate (m : Arith) (ws : List Word) : Word :=
  match m with
  | .reference => ws.foldl (· + ·) 0
  | .unspecified => Config.accumulate ws

/-! ### The matrix array (R76, R544) -/

/-- The storage register that position `c` of row register `a` names, through the transpose map (R544). Row register `a` is row
a mod 4 of matrix a / 4 (R76); storage register (m, r, c) is 16 m + 4 r + c. -/
def mmPos (tr1 tr0 : Bool) (a : DevAddr) (c : Fin 4) : Fin 64 :=
  let m := a.val / 4
  let r := a.val % 4
  match tr1, tr0 with
  | false, false => Fin.ofNat 64 (16 * m + 4 * r + c.val)
  | false, true => Fin.ofNat 64 (16 * m + 4 * c.val + r)
  | true, false => Fin.ofNat 64 (16 * c.val + 4 * r + m)
  | true, true => Fin.ofNat 64 (16 * r + 4 * m + c.val)

/-- `MM[a][c]` (R544). -/
def State.mmAt (s : State) (a : DevAddr) (c : Fin 4) : Word := s.mm[(mmPos s.mdir.tr1 s.mdir.tr0 a c).val]

/-- `MM[a][c] <- v` (R544). -/
def State.setMm (s : State) (a : DevAddr) (c : Fin 4) (v : Word) : State :=
  { s with mm := s.mm.set (mmPos s.mdir.tr1 s.mdir.tr0 a c).val v }

/-- The first two elements of a row, or all four (R76). -/
def State.mmRow (s : State) (twoD : Bool) (a : DevAddr) : Tuple :=
  if twoD then .two (s.mmAt a 0) (s.mmAt a 1) else .four (s.mmAt a 0) (s.mmAt a 1) (s.mmAt a 2) (s.mmAt a 3)

/-- The first two elements of a row replaced, or all four (R76, R431). -/
def State.setMmRow (s : State) (a : DevAddr) : Tuple → State
  | .two d0 d1 => (s.setMm a 0 d0).setMm a 1 d1
  | .four d0 d1 d2 d3 => (((s.setMm a 0 d0).setMm a 1 d1).setMm a 2 d2).setMm a 3 d3

/-- Row `r` of matrix `m` as a row register (R76). -/
def rowOf (m r : Nat) : DevAddr := Fin.ofNat 16 (4 * m + r)

/-- `RowTimesMatrix(d, m)` (R535): a row vector times matrix `m`; in 2D the 2 by 2 part (D20). -/
def State.rowTimesMatrix (s : State) (d : Tuple) (m : Nat) : Tuple :=
  let f := fmul s.params.arith
  let acc := accumulate s.params.arith
  match d with
  | .two d0 d1 =>
    let p (j : Fin 4) := acc [f d0 (s.mmAt (rowOf m 0) j), f d1 (s.mmAt (rowOf m 1) j)]
    .two (p 0) (p 1)
  | .four d0 d1 d2 d3 =>
    let p (j : Fin 4) := acc [f d0 (s.mmAt (rowOf m 0) j), f d1 (s.mmAt (rowOf m 1) j),
      f d2 (s.mmAt (rowOf m 2) j), f d3 (s.mmAt (rowOf m 3) j)]
    .four (p 0) (p 1) (p 2) (p 3)

/-! ### The directive register (R545) -/

/-- The J, K rule: 00 no change, 01 clear, 10 set, 11 complement (R77, R545, R562). -/
def jk (b j k : Bool) : Bool :=
  match j, k with
  | false, false => b
  | false, true => false
  | true, false => true
  | true, true => !b

/-- The J, K rule with the pair at two bits of a word (R545). -/
def jkAt (b : Bool) (w : Word) (p : Nat × Nat) : Bool := jk b (bitAt w p.1) (bitAt w p.2)

/-- `MdirLoad(d0, d1)` (R545). -/
def mdirLoad (l : MdirLayout) (d : Mdir) (d0 d1 : Word) : Mdir where
  moc := jkAt d.moc d0 l.moc
  mom := jkAt d.mom d0 l.mom
  curve := jkAt d.curve d0 l.curve
  tr1 := jkAt d.tr1 d0 l.tr1
  tr0 := jkAt d.tr0 d0 l.tr0
  q := d1

/-- The pair (b, not b) at two bits of a word, which sets `b` whatever it was (R545). -/
def putPair (w : Word) (b : Bool) (p : Nat × Nat) : Word := setBitAt (setBitAt w p.1 b) p.2 (!b)

/-- `MdirStore()` (R545). -/
def mdirStore (l : MdirLayout) (d : Mdir) : Word × Word :=
  (putPair (putPair (putPair (putPair (putPair 0 d.moc l.moc) d.mom l.mom) d.curve l.curve) d.tr1 l.tr1) d.tr0 l.tr0, d.q)

/-- MDIR loaded (R431, R545). -/
def State.loadMdir (s : State) (d0 d1 : Word) : State := { s with mdir := mdirLoad s.params.mdirLayout s.mdir d0 d1 }

/-! ### Drawing commands (R531, R537 to R543, R546) -/

/-- The words of a tuple, in order. -/
def Tuple.words : Tuple → List Word
  | .two d0 d1 => [d0, d1]
  | .four d0 d1 d2 d3 => [d0, d1, d2, d3]

/-- The words a unit sends to memory for `ws`: as they are, or, with the format left open, the free list of this operation
(R546, R555, D45; log 46). -/
def State.memoryFormat (s : State) (ws : List Word) : List Word :=
  match s.params.arith with
  | .reference => ws
  | .unspecified => Config.outputWords s.freeIx

/-- Output routed by MOM and MOC (R537, R546): to memory, to the Clipping Divider, to both or to neither. -/
def State.mmRoute (s : State) (q : Tuple) : State × Option Tuple :=
  ((if s.mdir.mom then (s.outputWords (s.memoryFormat q.words)).useFree 32 else s), if s.mdir.moc then some q else none)

/-- The 2D transformation (R538): the translation row is added as it stands (D20). -/
def State.transform2d (s : State) (x y : Word) : Tuple :=
  let f := fmul s.params.arith
  let p (j : Fin 4) := accumulate s.params.arith [f x (s.mmAt 0 j), f y (s.mmAt 1 j), s.mmAt 2 j]
  .two (p 0) (p 1)

/-- A point of free values, of the size of `p` (log 50). -/
def State.freePoint (s : State) (k : Nat) : Tuple → Tuple
  | .two .. => .two (s.free k) (s.free (k + 1))
  | .four .. => .four (s.free k) (s.free (k + 1)) (s.free (k + 2)) (s.free (k + 3))

/-- A drawing command with data (R531, R537, R538). In curve mode the point produced is not described and is free (U8;
log 50). -/
def State.mmDrawData (s : State) (mma : Bool) (p : Tuple) : State × Option Tuple :=
  if mma then
    if s.mdir.curve then (s.useFree 4).mmRoute (s.freePoint 0 p)
    else
      match p with
      | .two x y => s.mmRoute (s.transform2d x y)
      | .four .. => s.mmRoute (s.rowTimesMatrix p 0)
  else (s, some p)

/-- One step of the 2D curve (R540). A set point gives the present point and changes nothing. -/
def State.curve2d (s : State) (op : DrawOp) : State × Tuple :=
  let f := fmul s.params.arith
  let acc := accumulate s.params.arith
  match op with
  | .setPoint => (s, .two (acc [s.mmAt 3 0, s.mmAt 2 0]) (acc [s.mmAt 3 1, s.mmAt 2 1]))
  | _ =>
    let n (j : Fin 4) := acc [f (s.mmAt 3 0) (s.mmAt 0 j), f (s.mmAt 3 1) (s.mmAt 1 j)]
    let t := s.setMmRow 3 (.two (n 0) (n 1))
    (t, .two (acc [n 0, t.mmAt 2 0]) (acc [n 1, t.mmAt 2 1]))

/-- `MM[a][j] <- Acc(MM[a][j], FMul(Q, MM[b][j]))` for the four positions (R541, R542). -/
def State.mmStepRow (s : State) (a b : DevAddr) : State :=
  let n (t : State) (j : Fin 4) : State :=
    t.setMm a j (accumulate t.params.arith [t.mmAt a j, fmul t.params.arith t.mdir.q (t.mmAt b j)])
  n (n (n (n s 0) 1) 2) 3

/-- One step of the 3D curve: the rows of A from the top down (R541). -/
def State.curve3d (s : State) : State × Tuple :=
  let t := ((s.mmStepRow 0 1).mmStepRow 1 2).mmStepRow 2 3
  (t, t.mmRow false 0)

/-- NEWCRV: A + QB, B + QC, C + QD, the last with the old C and D, in that order for every element (R542). -/
def State.newCurve (s : State) : State :=
  let pass (t : State) (m : Nat) : State :=
    [0, 1, 2, 3].foldl (fun u i => u.mmStepRow (rowOf m i) (rowOf (m + 1) i)) t
  pass (pass (pass s 0) 1) 2

/-- Every matrix element becomes a free value: NEWCRV in 2D is not described (R542, U8; log 50). -/
def State.freeMatrices (s : State) : State :=
  ({ s with mm := Vector.ofFn fun i => s.free i.val } : State).useFree 64

/-- A dataless drawing command (R540 to R543). Outside curve mode, or with the unit not active, it is discarded (R543). -/
def State.mmDrawDataless (s : State) (mma : Bool) (dim : Dim) (op : DrawOp) : State × Option Tuple :=
  if mma && s.mdir.curve then
    match op, dim.is2d with
    | .box, true => (s.freeMatrices, none)
    | .box, false => (s.newCurve, none)
    | op, true => let r := s.curve2d op; r.1.mmRoute r.2
    | _, false => let r := s.curve3d; r.1.mmRoute r.2
  else (s, none)

/-- `MMdraw` (R530): the point that goes on to the Clipping Divider, or none. -/
def State.mmDraw (s : State) (c : Command) : State × Option Tuple :=
  match c.data with
  | some p => s.mmDrawData c.mma p
  | none => s.mmDrawDataless c.mma c.dim c.op

end Sys2Proof.Machine
end

