-- ==== Sys2Proof/Machine/ClippingDivider.lean ====
section
/-!
DEFINITION. The Clipping Divider and the port of the Line Generator: registers, clipping, mapping, boxing, output and status
(R431, R432, R441, R550 to R582).
-/

namespace Sys2Proof.Machine

/-! ### Registers (R81 to R87, R562 to R564) -/

/-- The load of CDIR (R562). -/
def cdirLoad (c : Cdir) (w : Word) : Cdir where
  stos := if bitAt w 9 then bitAt w 4 else c.stos
  stom := if bitAt w 9 then bitAt w 5 else c.stom
  ztos := if bitAt w 9 then bitAt w 6 else c.ztos
  ptom := if bitAt w 9 then bitAt w 7 else c.ptom
  ntom := if bitAt w 9 then bitAt w 8 else c.ntom
  curve := jkAt c.curve w (10, 11)
  mef := jkAt c.mef w (12, 13)
  dashed := jkAt c.dashed w (14, 15)
  selfX := if bitAt w 19 then bitAt w 17 else c.selfX
  selfY := if bitAt w 19 then bitAt w 18 else c.selfY

/-- The stored form of CDIR, which restores it when loaded again (R562, D42). -/
def cdirStore (c : Cdir) : Word × Word :=
  let w := setBitAt (setBitAt (setBitAt (setBitAt (setBitAt 0 4 c.stos) 5 c.stom) 6 c.ztos) 7 c.ptom) 8 c.ntom
  let w := putPair (putPair (putPair (setBitAt w 9 true) c.curve (10, 11)) c.mef (12, 13)) c.dashed (14, 15)
  (setBitAt (setBitAt (setBitAt w 17 c.selfX) 18 c.selfY) 19 true, 0)

/-- A selected scope whose permit bit is 0 (R563, R582). -/
def ClipDiv.violation (c : ClipDiv) : Bool := decide (c.select &&& ~~~c.permit ≠ 0)

/-- The load of SELINT (R563): the select bits if the take bit is set, the permit bits in executive mode, the intensity. -/
def selintLoad (c : ClipDiv) (mode : Mode) (w0 w1 : Word) : ClipDiv :=
  { c with
    select := if bitAt w0 10 then BitVec.ofNat 8 (fieldAt w0 2 9) else c.select
    permit := if mode = .executive then BitVec.ofNat 8 (fieldAt w0 11 18) else c.permit
    intensity := w1 }

/-- The stored form of SELINT (R563). -/
def selintStore (c : ClipDiv) : Word × Word :=
  (setFieldAt (setFieldAt 0 2 9 c.select.toNat) 11 18 c.permit.toNat, c.intensity)

/-- The first half of a four-word register replaced (R81). -/
def Quad.setLo (q : Quad) (v0 v1 : Word) : Quad := { q with c0 := v0, c1 := v1 }

/-- The second half of a four-word register replaced (R81). -/
def Quad.setHi (q : Quad) (v0 v1 : Word) : Quad := { q with c2 := v0, c3 := v1 }

/-- `CDwrite(r, v0, v1)` (R431): two words into two-word register `r`, 0 to 013, through that register's own load rule. A load of
SELINT that leaves a forbidden scope selected raises the scope violation (R563). There is no register 014 to 017:
those addresses name pairs of registers (R424). -/
def State.cdWrite (s : State) (r : DevAddr) (v0 v1 : Word) : State :=
  let c := s.cd
  match r with
  | 0 => { s with cd := { c with save := c.save.setLo v0 v1 } }
  | 1 => { s with cd := { c with save := c.save.setHi v0 v1 } }
  | 2 => { s with cd := { c with view := c.view.setLo v0 v1 } }
  | 3 => { s with cd := { c with view := c.view.setHi v0 v1 } }
  | 4 => { s with cd := { c with wind := c.wind.setLo v0 v1 } }
  | 5 => { s with cd := { c with wind := c.wind.setHi v0 v1 } }
  | 6 => { s with cd := { c with inst := c.inst.setLo v0 v1 } }
  | 7 => { s with cd := { c with inst := c.inst.setHi v0 v1 } }
  | 8 => { s with cd := { c with name := (v0, v1) } }
  | 9 => { s with cd := { c with cdir := cdirLoad c.cdir v0 } }
  | 10 => { s with cd := { c with hitang := (v0, v1) } }
  | 11 =>
    let t : State := { s with cd := selintLoad c s.mode v0 v1 }
    if t.cd.violation then t.raise .scopeViolation else t
  | _ => s

/-- `CDread(r)` (R432). -/
def State.cdRead (s : State) (r : DevAddr) : Word × Word :=
  let c := s.cd
  match r with
  | 0 => (c.save.c0, c.save.c1)
  | 1 => (c.save.c2, c.save.c3)
  | 2 => (c.view.c0, c.view.c1)
  | 3 => (c.view.c2, c.view.c3)
  | 4 => (c.wind.c0, c.wind.c1)
  | 5 => (c.wind.c2, c.wind.c3)
  | 6 => (c.inst.c0, c.inst.c1)
  | 7 => (c.inst.c2, c.inst.c3)
  | 8 => c.name
  | 9 => cdirStore c.cdir
  | 10 => c.hitang
  | 11 => selintStore c
  | _ => (0, 0)

/-- The first two-word register of the pair that address 014 + k names, register 2 k (R424). -/
def pairLo (a : DevAddr) : DevAddr := Fin.ofNat 16 (2 * (a.val - 12))

/-- The second two-word register of the pair that address 014 + k names, register 2 k + 1 (R424). -/
def pairHi (a : DevAddr) : DevAddr := Fin.ofNat 16 (2 * (a.val - 12) + 1)

/-! ### Rectangles and status (R556, R570, R571) -/

/-- `AreaInCommon` (R556), with closed comparisons (D21). -/
def areaInCommon (w r : Quad) : Bool :=
  !(decide (r.c2.toInt < w.c0.toInt) || decide (r.c0.toInt > w.c2.toInt) ||
    decide (r.c3.toInt < w.c1.toInt) || decide (r.c1.toInt > w.c3.toInt))

/-- The four-word register that address 014 + k names (R81, R424). -/
def ClipDiv.quad (c : ClipDiv) (a : DevAddr) : Quad :=
  match a with
  | 12 => c.save
  | 13 => c.view
  | 14 => c.wind
  | _ => c.inst

/-- `DIR[22] <- AreaInCommon(WINDOW, register pair)` (R441, R571). -/
def State.setAic (s : State) (a : DevAddr) : State :=
  { s with dir := setBitAt s.dir 22 (areaInCommon s.cd.wind (s.cd.quad a)) }

/-- `DIR[21] <- 1` (R570). -/
def State.setHit (s : State) : State := { s with dir := setBitAt s.dir 21 true }

/-- The counts after a line: HITANG is unconstrained (R575, D46; log 47). -/
def State.countsUpdate (s : State) : State := { s with cd := { s.cd with hitang := (s.free 0, s.free 1) } }

/-! ### Number format (R550) -/

/-- `cd(v)` as a word: bit 0 is regenerated from bit 1 (R550, D43). -/
def cdIn (v : Word) : Word := (v.setWidth 23).signExtend 24

/-- `cd(v)` as a signed number (R550). -/
def cdInt (v : Word) : Int := (v.setWidth 23).toInt

/-- `cd` of every component (R550). -/
def Tuple.cdIn : Tuple → Tuple
  | .two d0 d1 => .two (Machine.cdIn d0) (Machine.cdIn d1)
  | .four d0 d1 d2 d3 => .four (Machine.cdIn d0) (Machine.cdIn d1) (Machine.cdIn d2) (Machine.cdIn d3)

/-! ### Clipping (R553, R554, R560) -/

/-- The part of a segment, from `ln / ld` to `hn / hd` of the way from its first to its second end; the denominators are positive. -/
structure Span where
  ln : Int
  ld : Int
  hn : Int
  hd : Int
deriving DecidableEq, Repr

/-- The part of a span on which a quantity that goes linearly from `f0` to `f1` is not negative. -/
def Span.cut (f0 f1 : Int) (p : Span) : Option Span :=
  if 0 ≤ f0 then
    if 0 ≤ f1 then some p
    else if f0 * p.hd < p.hn * (f0 - f1) then some { p with hn := f0, hd := f0 - f1 } else some p
  else if 0 ≤ f1 then
    if p.ln * (f1 - f0) < -f0 * p.ld then some { p with ln := -f0, ld := f1 - f0 } else some p
  else none

/-- The part of a whole segment on which every quantity of the list is not negative, if there is any. -/
def clipSpan (fs : List (Int × Int)) : Option Span :=
  let p := fs.foldl (fun acc f => acc.bind (Span.cut f.1 f.2)) (some { ln := 0, ld := 1, hn := 1, hd := 1 })
  p.bind fun q => if q.ln * q.hd ≤ q.hn * q.ld then some q else none

/-- The quotient `n / d` as an integer: rounded toward minus infinity by the spec's reference definitions; with the arithmetic left
open, an inexact quotient is rounded down or up by the `k`-th free value, since the rounding alone is open (R553, R560; log 22). -/
def State.rounded (s : State) (k : Nat) (n d : Int) : Int :=
  match s.params.arith with
  | .reference => Int.fdiv n d
  | .unspecified => if Int.fmod n d ≠ 0 ∧ bitAt (s.free k) 0 then Int.fdiv n d + 1 else Int.fdiv n d

/-- One coordinate at `n / d` of the way from `a` to `b`, rounded (R560). -/
def State.lerp (s : State) (k : Nat) (a b n d : Int) : Int := a + s.rounded k ((b - a) * n) d

/-- An end point in the Clipping Divider: X, Y and, in 3D, Zx and Zy as integers. -/
structure CdPoint where
  x : Int
  y : Int
  zx : Int
  zy : Int
deriving DecidableEq, Repr

/-- The components of a point after `cd` (R550). In 2D the last two are not used. -/
def cdPoint : Tuple → CdPoint
  | .two x y => { x := cdInt x, y := cdInt y, zx := 0, zy := 0 }
  | .four x y zx zy => { x := cdInt x, y := cdInt y, zx := cdInt zx, zy := cdInt zy }

/-- `Clip2D`: what must not be negative for a point to lie in the window (R553). -/
def clip2d (w : Quad) (p q : CdPoint) : Option Span :=
  clipSpan [(p.x - w.c0.toInt, q.x - w.c0.toInt), (w.c2.toInt - p.x, w.c2.toInt - q.x),
    (p.y - w.c1.toInt, q.y - w.c1.toInt), (w.c3.toInt - p.y, w.c3.toInt - q.y)]

/-- A backward window: it displays nothing (R553). -/
def backward (w : Quad) : Bool := decide (w.c0.toInt > w.c2.toInt) || decide (w.c1.toInt > w.c3.toInt)

/-- `Clip3D`: the part inside the pyramid of vision (R554). -/
def clip3d (p q : CdPoint) : Option Span :=
  clipSpan [(p.zx - p.x, q.zx - q.x), (p.zx + p.x, q.zx + q.x), (p.zy - p.y, q.zy - q.y), (p.zy + p.y, q.zy + q.y)]

/-- The part inside the negative pyramid, displayed under CDIR CURVE (R554, R557). -/
def clip3dNegative (p q : CdPoint) : Option Span :=
  clipSpan [(-p.zx - p.x, -q.zx - q.x), (-p.zx + p.x, -q.zx + q.x), (-p.zy - p.y, -q.zy - q.y), (-p.zy + p.y, -q.zy + q.y)]

/-- The point at `n / d` of a segment, rounded (R560). -/
def State.spanPoint (s : State) (k : Nat) (p q : CdPoint) (n d : Int) : CdPoint where
  x := s.lerp k p.x q.x n d
  y := s.lerp (k + 1) p.y q.y n d
  zx := s.lerp (k + 2) p.zx q.zx n d
  zy := s.lerp (k + 3) p.zy q.zy n d

/-- Some point of the visible part of a segment: which one is open, so a free value says how far along the part it lies (R85, R557; log
50). -/
def State.somePoint (s : State) (p q : CdPoint) (v : Span) : CdPoint :=
  let f : Int := (s.free 0).toNat
  s.spanPoint 12 p q (v.ln * v.hd * (16777215 - f) + v.hn * v.ld * f) (v.ld * v.hd * 16777215)

/-! ### Mapping (R553, R554, R560) -/

/-- One axis of `Map2D` (R553); a zero divisor gives a free value (U8). -/
def State.mapAxis (s : State) (k : Nat) (v w0 w1 v0 v1 : Int) : Word :=
  if w0 = w1 then s.free k else wordOfInt (v0 + s.rounded k ((v - w0) * (v1 - v0)) (w1 - w0))

/-- One axis of `Map3D` (R554); a zero divisor gives a free value (U8). -/
def State.mapRatio (s : State) (k : Nat) (v z v0 v1 : Int) : Word :=
  if z = 0 then s.free k else wordOfInt (s.rounded k ((v0 + v1) * z + v * (v1 - v0)) (2 * z))

/-- An output point: X, Y and Z as words. -/
structure Point3 where
  x : Word
  y : Word
  z : Word
deriving DecidableEq, Repr

/-- A point of three free values. -/
def State.freePoint3 (s : State) (k : Nat) : Point3 := { x := s.free k, y := s.free (k + 1), z := s.free (k + 2) }

/-- `Map2D` and `Map3D` under the present window and viewport (R553, R554, R560; log 22). Z is not mapped. DESIGN CHOICE: the Z of a point
(x, y, zx, zy) is zx, where R554 and R555 write only Z (log 46). -/
def State.mapPoint (s : State) (twoD : Bool) (k : Nat) (c : CdPoint) : Point3 :=
  let w := s.cd.wind
  let v := s.cd.view
  if twoD then
    { x := s.mapAxis k c.x w.c0.toInt w.c2.toInt v.c0.toInt v.c2.toInt
      y := s.mapAxis (k + 1) c.y w.c1.toInt w.c3.toInt v.c1.toInt v.c3.toInt
      z := wordOfInt c.zx }
  else
    { x := s.mapRatio k c.x c.zx v.c0.toInt v.c2.toInt
      y := s.mapRatio (k + 1) c.y c.zy v.c1.toInt v.c3.toInt
      z := wordOfInt c.zx }

/-- The page point of a clipped end, before division (R553, R554). DESIGN CHOICE: its Z is zx (log 46). -/
def pagePoint (c : CdPoint) : Point3 := { x := wordOfInt c.x, y := wordOfInt c.y, z := wordOfInt c.zx }

/-! ### Output (R555, R580 to R582) -/

/-- The group of words of a point: X, Y and in 3D Z (R555). -/
def Point3.words (twoD : Bool) (p : Point3) : List Word := if twoD then [p.x, p.y] else [p.x, p.y, p.z]

/-- `CdMemOut`: the groups for one point, in the order scaled point, page point, NAME (R555, D45). -/
def State.memoryGroups (s : State) (twoD : Bool) (scaled page : Point3) : List Word :=
  (if s.cd.cdir.stom then scaled.words twoD else []) ++ (if s.cd.cdir.ptom then page.words twoD else []) ++
    (if s.cd.cdir.ntom then [s.cd.name.1, s.cd.name.2] else [])

/-- The groups for one point are sent to memory (R127, R555). -/
def State.cdMemOut (s : State) (twoD : Bool) (scaled page : Point3) : State :=
  if s.cd.cdir.stom || s.cd.cdir.ptom || s.cd.cdir.ntom then
    s.outputWords (s.memoryFormat (s.memoryGroups twoD scaled page))
  else s

/-- What controls the intensity at a point: Z under ZTOS, else INTENSITY (R555, R581). A point in 2D has no Z: a free
value (log 50). -/
def State.intensityAt (s : State) (twoD : Bool) (k : Nat) (p : Point3) : Word :=
  if s.cd.cdir.ztos then (if twoD then s.free k else p.z) else s.cd.intensity

/-- `Emit(kind, p)` (R580): one command to the Line Generator. -/
def State.emit (s : State) (kind : EmitKind) (x y z : Word) : State :=
  { s with scope := { kind := kind, x := x, y := y, z := z, select := s.cd.select, permit := s.cd.permit,
                      dashed := s.cd.cdir.dashed } :: s.scope }

/-- The beam is at a point: the last command to the Line Generator left it there (R553). -/
def State.beamAt (s : State) (x y : Word) : Bool :=
  match s.scope with
  | [] => false
  | e :: _ => decide (e.x = x) && decide (e.y = y)

/-- A visible line sent to the scope: a move to its first end unless the beam is there, and a draw to its second; a selected scope
without permit raises a scope violation (R553, R582). -/
def State.emitLine (s : State) (twoD : Bool) (e0 e1 : Point3) : State :=
  let s1 := if s.cd.violation then s.raise .scopeViolation else s
  let s2 := if s1.beamAt e0.x e0.y then s1 else s1.emit .move e0.x e0.y (s1.intensityAt twoD 1 e0)
  s2.emit .draw e1.x e1.y (s2.intensityAt twoD 2 e1)

/-- One visible part of a line: HIT, the output to memory and the output to the scope (R553 to R555, R570). DESIGN CHOICE: the end point
of the STOM and PTOM groups, which R555 does not tell from the other, is the second end of `Line(P0, P1)`, C1 of R553: for a draw-from the end
toward SAVE, not toward the new point (log 46). Under MEF the page point is
some point of the visible part. DESIGN CHOICE: the scaled output of this mode, which R557 does not describe, is made all the same: under STOM a
group, under STOS a move and a draw with the test for a scope violation; its coordinates are free (log 50, 68). -/
def State.visiblePart (s : State) (twoD : Bool) (p q : CdPoint) (v : Span) : State :=
  let c0 := s.spanPoint 4 p q v.ln v.ld
  let c1 := s.spanPoint 8 p q v.hn v.hd
  let mef := s.cd.cdir.mef
  let page := pagePoint (if mef then s.somePoint p q v else c1)
  let e0 := if mef then s.freePoint3 16 else s.mapPoint twoD 22 c0
  let e1 := if mef then s.freePoint3 19 else s.mapPoint twoD 24 c1
  let s1 := s.setHit.cdMemOut twoD e1 page
  if s1.cd.cdir.stos then s1.emitLine twoD e0 e1 else s1

/-- A part if there is one, with its block of free values used up. -/
def State.partIfVisible (s : State) (twoD : Bool) (p q : CdPoint) : Option Span → State
  | none => s
  | some v => (s.visiblePart twoD p q v).useFree 32

/-- The part of a line that Minimum Effort Mode takes its point from, of the parts in the two pyramids: either, if both are visible
(R557). Which one is open, so a free value says (log 50). -/
def State.onePart (s : State) : Option Span → Option Span → Option Span
  | some v, some w => some (if bitAt (s.free 0) 0 then w else v)
  | some v, none => some v
  | none, w => w

/-- The parts of a 3D line in the two pyramids (R554, R557). DESIGN CHOICE: Minimum Effort Mode yields one point for a line seen in both,
on either part; R85 and R557 do not describe it together with CURVE. Without it each visible part is output by itself, with its own groups to memory and its own move and draw, the
part in the positive pyramid first; R554 gives neither the order nor the groups of the second part (log 67). -/
def State.line3d (s : State) (p q : CdPoint) (v w : Option Span) : State :=
  if s.cd.cdir.mef then (s.useFree 1).partIfVisible false p q (s.onePart v w)
  else (s.partIfVisible false p q v).partIfVisible false p q w

/-- `Line(P0, P1)` (R552 to R554): the visible part of a segment, in 3D under CURVE both parts. The counts are free after any line
(R575). -/
def State.line (s : State) (p q : Tuple) : State :=
  let a := cdPoint p
  let b := cdPoint q
  let s1 := s.countsUpdate.useFree 2
  match p with
  | .two .. => s1.partIfVisible true a b (if backward s.cd.wind then none else clip2d s.cd.wind a b)
  | .four .. => s1.line3d a b (clip3d a b) (if s.cd.cdir.curve then clip3dNegative a b else none)

/-! ### Drawing commands (R552, R556, R566) -/

/-- SAVE with NW components, in the shape of a point (R552). -/
def ClipDiv.savePoint (c : ClipDiv) : Tuple → Tuple
  | .two .. => .two c.save.c0 c.save.c1
  | .four .. => .four c.save.c0 c.save.c1 c.save.c2 c.save.c3

/-- `SAVE <- n` (R552). -/
def State.setSave (s : State) : Tuple → State
  | .two x y => { s with cd := { s.cd with save := s.cd.save.setLo x y } }
  | .four x y zx zy => { s with cd := { s.cd with save := { c0 := x, c1 := y, c2 := zx, c3 := zy } } }

/-- `GraphPoint(q)` (R566). -/
def ClipDiv.graphPoint (c : ClipDiv) (q : Tuple) : Tuple :=
  let gx (v : Word) := if c.cdir.selfX then c.save.c0 + c.inst.c0 else v
  let gy (v : Word) := if c.cdir.selfY then c.save.c1 + c.inst.c1 else v
  match q with
  | .two x y => .two (gx x) (gy y)
  | .four x y zx zy => .four (gx x) (gy y) zx zy

/-- The inverse of one axis of the instance map I (R556); a zero divisor gives a free value (U8). -/
def State.boxAxis (s : State) (k : Nat) (v i0 i1 m0 m1 : Int) : Word :=
  if i0 = i1 ∨ m0 = m1 then s.free k else wordOfInt (m0 + s.rounded k ((v - i0) * (m1 - m0)) (i1 - i0))

/-- Two free values in falling order, for one axis of a backward window: every falling pair comes of some two values, and equal values
stand for the pair 1, 0 (R556; log 50). -/
def backwardPair (a b : Word) : Word × Word :=
  if a.toInt > b.toInt then (a, b) else if b.toInt > a.toInt then (b, a) else (1, 0)

/-- Some backward window (R556): its edges are free values, falling in X or in Y, or in both. Which axis falls is open, so a free value says
which of them is made to (log 50). -/
def State.backwardWindow (s : State) (k : Nat) : Quad :=
  let x := backwardPair (s.free k) (s.free (k + 2))
  let y := backwardPair (s.free (k + 1)) (s.free (k + 3))
  if bitAt (s.free (k + 4)) 0 then { c0 := s.free k, c1 := y.1, c2 := s.free (k + 2), c3 := y.2 }
  else { c0 := x.1, c1 := s.free (k + 1), c2 := x.2, c3 := s.free (k + 3) }

/-- `BoxFn` (R556, R560): the instance clipped to the window; the new viewport is its image; the new window is its inverse image under the
instance map, or a backward window if the clipped instance is empty (G1; log 22). -/
def State.box2d (s : State) (a b : CdPoint) : Quad × Quad :=
  let w := s.cd.wind
  let i := s.cd.inst
  let cl := max i.c0.toInt w.c0.toInt
  let cb := max i.c1.toInt w.c1.toInt
  let cr := min i.c2.toInt w.c2.toInt
  let ct := min i.c3.toInt w.c3.toInt
  let v0 := s.mapPoint true 0 { x := cl, y := cb, zx := 0, zy := 0 }
  let v1 := s.mapPoint true 2 { x := cr, y := ct, zx := 0, zy := 0 }
  let wind : Quad :=
    if cl > cr ∨ cb > ct then s.backwardWindow 4
    else
      { c0 := s.boxAxis 4 cl i.c0.toInt i.c2.toInt a.x b.x
        c1 := s.boxAxis 5 cb i.c1.toInt i.c3.toInt a.y b.y
        c2 := s.boxAxis 6 cr i.c0.toInt i.c2.toInt a.x b.x
        c3 := s.boxAxis 7 ct i.c1.toInt i.c3.toInt a.y b.y }
  (wind, { c0 := v0.x, c1 := v0.y, c2 := v1.x, c3 := v1.y })

/-- `BoxOp(S, n)` (R556): a new window and a new viewport and nothing else. Boxing in 3D is not described: both are free there (U8; log
50). -/
def State.boxOp (s : State) (m n : Tuple) : State :=
  let r : Quad × Quad := match n with
    | .two .. => s.box2d (cdPoint m) (cdPoint n)
    | .four .. => ({ c0 := s.free 4, c1 := s.free 5, c2 := s.free 6, c3 := s.free 7 },
        { c0 := s.free 0, c1 := s.free 1, c2 := s.free 2, c3 := s.free 3 })
  ({ s with cd := { s.cd with wind := r.1, view := r.2 } } : State).useFree 9

/-- A set point: SAVE, the beam, and the output to memory (R552, R555). -/
def State.setPointOp (s : State) (n : Tuple) : State :=
  let twoD := match n with | .two .. => true | .four .. => false
  let c := cdPoint n
  let page := pagePoint c
  let scaled := s.mapPoint twoD 3 c
  let s1 := (s.setSave n).cdMemOut twoD scaled page
  (s1.emit .move page.x page.y (s1.intensityAt twoD 6 page)).useFree 16

/-- `CDdraw(op, q)` (R552); with CDA = 0 the command is discarded (R531, D39). DESIGN CHOICE: a coordinate of graph mode, SAVE + INSTLB, is
brought to the unit's 23 bits as an incoming one is before it is used and stored in SAVE; R566 gives the plain sum (log 44). -/
def State.cdDraw (s : State) (cda : Bool) (op : DrawOp) (q : Tuple) : State :=
  if cda then
    let n := (s.cd.graphPoint q).cdIn
    let save := s.cd.savePoint n
    match op with
    | .setPoint => s.setPointOp n
    | .drawTo => (s.line save n).setSave n
    | .drawFrom => s.line n save
    | .dot => (s.line n n).setSave n
    | .box => s.boxOp save n
  else s

end Sys2Proof.Machine
end

