-- ==== Sys2Proof/Machine/Pipeline.lean ====
section
/-!
DEFINITION. The pipeline agent: its queue, and the commands that move its registers (R430 to R432, R441, R472 to R478, R530).
-/

namespace Sys2Proof.Machine

/-! ### The queue of drawing commands (R430, R530) -/

/-- One drawing command applied by the units in turn (R530). -/
def State.apply (s : State) (c : Command) : State :=
  let r := s.mmDraw c
  match r.2 with
  | some q => r.1.cdDraw c.cda c.op q
  | none => r.1

/-- `PipelineStep` (R530): the oldest command is taken and applied; nothing happens on an empty queue. -/
def State.pipelineStep (s : State) : State :=
  match s.queue with
  | [] => s
  | c :: rest => ({ s with queue := rest } : State).apply c

/-- The pipeline settles: every queued command is applied, oldest first (R430, R573). -/
def State.settle (s : State) : State := s.queue.foldl State.apply { s with queue := [] }

/-- What can happen between two iterations of a repeat instruction: the host's memory accesses, and steps of the pipeline with their
output (R126, R127; log 17). -/
def State.betweenIterations (s : State) (e : AgentEvent) : State :=
  match e with
  | .pipeline => s.pipelineStep
  | .tick _ => s
  | .hostRead a => s.hostRead a
  | .hostWrite a v => s.hostWrite a v
  | .hostRegister _ => s
  | .switches _ => s

/-- A point between two iterations of a repeat instruction (R114, R127, R511; log 16, 17). -/
def State.turn (s : State) : State := s.popTurn State.betweenIterations

/-- `PipeSend(Draw(op, form), data)` (R430, R495): the command joins the queue with its snapshot of DIR (R531); under NOV the
Channel Control waits for the pipeline to settle, and the host may act between the words of the point and the first word of output
(R114, R126). -/
def State.sendDraw (s : State) (op : DrawOp) (form : Form) (data : Option Tuple) : State :=
  let c : Command := { op := op, form := form, data := data, mma := s.mma, cda := s.cda, nov := s.nov, dim := s.dim }
  let s1 : State := { s with queue := s.queue ++ [c] }
  if s.nov then s1.gap.settle else s1

/-! ### Loading a register (R431, R441) -/

/-- The manners of a load (R422). -/
inductive LoadManner
  | cla | clr | clsa | clsr | mm | mmr | mmp | mdr
deriving DecidableEq, Repr

/-- The pipeline devices an unload reads (R432). -/
inductive Device
  | clippingDivider | matrix | directive
deriving DecidableEq, Repr

/-- Whether a load takes its data relative to SAVE (R422). -/
def LoadManner.relative : LoadManner → Bool
  | .cla => false
  | .clr => true
  | .clsa => false
  | .clsr => true
  | .mm => false
  | .mmr => false
  | .mmp => false
  | .mdr => false

/-- Whether a load gives size data (R422). -/
def LoadManner.size : LoadManner → Bool
  | .cla => false
  | .clr => false
  | .clsa => true
  | .clsr => true
  | .mm => false
  | .mmr => false
  | .mmp => false
  | .mdr => false

/-- The 2D four-component load (R441): both halves of the register that address 014 + k names, then AIC. DESIGN CHOICE: a load of SAVE itself
takes SAVE as it was before the load for both halves; the pseudocode names SAVE again after its first half is written, the text speaks
of one value (log 34). -/
def State.load2dFour (s : State) (m : LoadManner) (a : DevAddr) (d0 d1 : Word) : State :=
  let s0 := s.cd.save.c0
  let s1 := s.cd.save.c1
  let b0 := if m.relative then s0 else 0
  let b1 := if m.relative then s1 else 0
  let lo := if m.size then (b0 - d0, b1 - d1) else (s0, s1)
  ((s.cdWrite (pairLo a) lo.1 lo.2).cdWrite (pairHi a) (b0 + d0) (b1 + d1)).setAic a

/-- `Load` to the Clipping Divider (R431, R441). Where the manner has no meaning for the address the data are taken as absolute or
relative (D33). -/
def State.loadCd (s : State) (m : LoadManner) (a : DevAddr) : Tuple → State
  | .two d0 d1 =>
    if 12 ≤ a.val then s.load2dFour m a d0 d1
    else if m.relative then s.cdWrite a (s.cd.save.c0 + d0) (s.cd.save.c1 + d1)
    else s.cdWrite a d0 d1
  | .four d0 d1 d2 d3 =>
    let q := s.cd.save
    let v := if m.relative then (q.c0 + d0, q.c1 + d1, q.c2 + d2, q.c3 + d3) else (d0, d1, d2, d3)
    let lo := if 12 ≤ a.val then pairLo a else a
    let hi := if 12 ≤ a.val then pairHi a else a
    (s.cdWrite lo v.1 v.2.1).cdWrite hi v.2.2.1 v.2.2.2

/-- Two tuples added word by word (R431). -/
def Tuple.add : Tuple → Tuple → Tuple
  | .two a0 a1, .two b0 b1 => .two (a0 + b0) (a1 + b1)
  | .two a0 a1, .four b0 b1 _ _ => .two (a0 + b0) (a1 + b1)
  | .four a0 a1 a2 a3, .two b0 b1 => .four (a0 + b0) (a1 + b1) a2 a3
  | .four a0 a1 a2 a3, .four b0 b1 b2 b3 => .four (a0 + b0) (a1 + b1) (a2 + b2) (a3 + b3)

/-- Whether a tuple is the two words of 2D (R424). -/
def Tuple.is2d : Tuple → Bool
  | .two .. => true
  | .four .. => false

/-- Row `a` modulo 4 of matrix A, "the corresponding row" (R431, R472). -/
def rowOfA (a : DevAddr) : DevAddr := Fin.ofNat 16 (a.val % 4)

/-- `Load` to MDIR: of four words the last two are loaded last (R431). -/
def State.loadMdirTuple (s : State) : Tuple → State
  | .two d0 d1 => s.loadMdir d0 d1
  | .four d0 d1 d2 d3 => (s.loadMdir d0 d1).loadMdir d2 d3

/-- `Load(DM, a)` with its data (R431). -/
def State.load (s : State) (m : LoadManner) (a : DevAddr) (d : Tuple) : State :=
  match m with
  | .cla => s.loadCd .cla a d
  | .clr => s.loadCd .clr a d
  | .clsa => s.loadCd .clsa a d
  | .clsr => s.loadCd .clsr a d
  | .mm => s.setMmRow a d
  | .mmr => s.setMmRow a (d.add (s.mmRow d.is2d a))
  | .mmp => s.setMmRow (rowOfA a) (s.rowTimesMatrix d (a.val / 4))
  | .mdr => s.loadMdirTuple d

/-! ### Unloading a register (R432) -/

/-- `Unload` from the Clipping Divider (R432, D33). -/
def State.unloadCd (s : State) (twoD : Bool) (a : DevAddr) : Tuple :=
  let lo := s.cdRead (if 12 ≤ a.val then pairLo a else a)
  let hi := s.cdRead (if 12 ≤ a.val then pairHi a else a)
  if twoD then .two hi.1 hi.2 else .four lo.1 lo.2 hi.1 hi.2

/-- `Unload(DM, a)` (R432). -/
def State.unload (s : State) (twoD : Bool) (v : Device) (a : DevAddr) : Tuple :=
  match v with
  | .clippingDivider => s.unloadCd twoD a
  | .matrix => s.mmRow twoD a
  | .directive =>
    let m := mdirStore s.params.mdirLayout s.mdir
    if twoD then .two m.1 m.2 else .four m.1 m.2 m.1 m.2

/-! ### The special operations (R472, R474, R476 to R478) -/

/-- A row copied to another, two elements in 2D and four in 3D. -/
def State.copyRow (s : State) (twoD : Bool) (src dst : DevAddr) : State := s.setMmRow dst (s.mmRow twoD src)

/-- `Big` (R476): the first two bits of an element differ. -/
def big (e : Word) : Bool := bitAt e 0 != bitAt e 1

/-- The sixteen positions of matrix A. -/
def matrixA : List (DevAddr × Fin 4) :=
  [(0, 0), (0, 1), (0, 2), (0, 3), (1, 0), (1, 1), (1, 2), (1, 3),
   (2, 0), (2, 1), (2, 2), (2, 3), (3, 0), (3, 1), (3, 2), (3, 3)]

/-- Every element of matrix A shifted left one place (R476). -/
def State.shiftA (s : State) : State := matrixA.foldl (fun t p => t.setMm p.1 p.2 (t.mmAt p.1 p.2 <<< 1)) s

/-- Some element of matrix A is big (R476). -/
def State.anyBig (s : State) : Bool := matrixA.any fun p => big (s.mmAt p.1 p.2)

/-- At most `n` shifts of matrix A, stopping when an element is big (R476). -/
def State.normalize : Nat → State → State
  | 0, s => s
  | n + 1, s => if s.anyBig then s else State.normalize n s.shiftA

end Sys2Proof.Machine
end

