-- ==== Sys2Proof/Machine/Repeat.lean ====
section
/-!
DEFINITION. The repeat algorithms of the display instructions: the counted loops, REPEAT STATUS and resumption (R436 to R439, R476 to
R478, R493 to R511).
-/

namespace Sys2Proof.Machine

/-! ### Counting (R37, R436, R499) -/

/-- The iterations a counter asks for: one if it is zero or positive, else its magnitude (R436, R499). -/
def iterations (rc : Word) : Nat := if bitAt rc 0 then 16777216 - rc.toNat else 1

/-- The 2D or 3D size of a transfer (R424). -/
def State.twoD (s : State) : Bool := s.dim.is2d

/-- NW, the words of a transfer (R424). -/
def nwWord (twoD : Bool) : Word := if twoD then 2 else 4

/-! ### Transfers with memory (R436, R437) -/

/-- What is left of a read of several words that a condition stopped: the condition, how many words were read before it, and the state. -/
abbrev Stopped := Cond × Word × State

/-- The first word of several (R114). -/
def State.readFirst (s : State) (a : Word) : Except Stopped (Word × State) :=
  match s.memRead a with
  | .ok v => .ok (v, s)
  | .error c => .error (c, 0, s)

/-- A further word, `k` having been read: other agents may act before it (R114, R126). -/
def State.readNext (s : State) (k a : Word) : Except Stopped (Word × State) :=
  match s.gap.memRead a with
  | .ok v => .ok (v, s.gap)
  | .error c => .error (c, k, s.gap)

/-- NW words read upward from `a`, or the first condition met (R436). -/
def State.readUp (s : State) (twoD : Bool) (a : Word) : Except Stopped (Tuple × State) := do
  let (d0, s0) ← s.readFirst a
  let (d1, s1) ← s0.readNext 1 (a + 1)
  if twoD then pure (.two d0 d1, s1)
  else
    let (d2, s2) ← s1.readNext 2 (a + 2)
    let (d3, s3) ← s2.readNext 3 (a + 3)
    pure (.four d0 d1 d2 d3, s3)

/-- The NW words below `a`, read downward, or the first condition met (R437). -/
def State.readDown (s : State) (twoD : Bool) (a : Word) : Except Stopped (Tuple × State) := do
  let (e0, s0) ← s.readFirst (a - 1)
  let (e1, s1) ← s0.readNext 1 (a - 2)
  if twoD then pure (.two e1 e0, s1)
  else
    let (e2, s2) ← s1.readNext 2 (a - 3)
    let (e3, s3) ← s2.readNext 3 (a - 4)
    pure (.four e3 e2 e1 e0, s3)

/-- Words written upward from `a`, with what other agents do between them; a condition leaves the words before it written (R114, R126,
R436). -/
def State.writeUp (s : State) (a : Word) : List Word → State × Option Cond
  | [] => (s, none)
  | v :: vs =>
    match s.memWrite a v, vs with
    | .error c, _ => (s, some c)
    | .ok t, [] => (t, none)
    | .ok t, w :: ws => t.gap.writeUp (a + 1) (w :: ws)

/-- What one iteration of a load/unload instruction does: the grid of R423. -/
inductive Action
  | load (m : LoadManner)
  | unload (v : Device)
  | retrieveSlide
  | sinkSlide
  | push
  | pop
  | normalize
deriving DecidableEq, Repr

/-- The grid of R423: the action of (U, sink or retrieve, device and manner), none where R423 has a dash. -/
def actionOf (u sink : Bool) (dm : Nat) : Option Action :=
  match u, sink, dm with
  | false, _, 0 => some (.load .cla)
  | false, _, 1 => some (.load .clr)
  | false, _, 2 => some (.load .clsa)
  | false, _, 3 => some (.load .clsr)
  | false, _, 4 => some (.load .mm)
  | false, false, 5 => some (.load .mmr)
  | false, true, 5 => some .retrieveSlide
  | false, false, 6 => some (.load .mmp)
  | false, _, 7 => some (.load .mdr)
  | true, _, 0 => some (.unload .clippingDivider)
  | true, _, 4 => some (.unload .matrix)
  | true, false, 5 => some .normalize
  | true, true, 5 => some .sinkSlide
  | true, false, 6 => some .pop
  | true, true, 6 => some .push
  | true, _, 7 => some (.unload .directive)
  | _, _, _ => none

/-- A load from memory through RP, or a retrieve through DSP: the words, and the pointer after them (R436, R437). -/
def State.fetchWords (s : State) (sink : Bool) : Except Stopped (Tuple × State) :=
  if sink then do
    let (d, t) ← s.readDown s.twoD (s.reg Reg.dsp)
    pure (d, t.setReg Reg.dsp (t.reg Reg.dsp - nwWord t.twoD))
  else do
    let (d, t) ← s.readUp s.twoD (s.reg Reg.rp)
    pure (d, t.setReg Reg.rp (t.reg Reg.rp + nwWord t.twoD))

/-- A store to memory through RP, or a sink through DSP; the pointer advances only if every word was written (R436, R437). -/
def State.storeWords (s : State) (sink : Bool) (d : Tuple) : State × Option Cond :=
  let p := if sink then Reg.dsp else Reg.rp
  match s.writeUp (s.reg p) d.words with
  | (t, none) => (t.setReg p (t.reg p + nwWord d.is2d), none)
  | (t, some c) => (t, some c)

/-- One iteration of a memory, sink or special form at register address `a` (R436, R437, R472, R474, R477, R478). A row that could
not be sunk is not replaced (R474). -/
def State.transferOnce (s : State) (act : Action) (sink : Bool) (a : DevAddr) : State × Option Cond :=
  match act with
  | .load m =>
    match s.fetchWords sink with
    | .ok (d, t) => (t.load m a d, none)
    | .error e => (e.2.2, some e.1)
  | .retrieveSlide =>
    match s.fetchWords sink with
    | .ok (d, t) => ((t.copyRow d.is2d a (rowOfA a)).setMmRow a d, none)
    | .error e => (e.2.2, some e.1)
  | .unload v => s.storeWords sink (s.unload s.twoD v a)
  | .sinkSlide =>
    match s.storeWords sink (s.unload s.twoD .matrix a) with
    | (t, none) => (t.copyRow t.twoD (rowOfA a) a, none)
    | (t, some c) => (t, some c)
  | .push => (s.copyRow s.twoD (rowOfA a) a, none)
  | .pop => (s.copyRow s.twoD a (rowOfA a), none)
  | .normalize => (s, none)

/-! ### REPEAT STATUS (R53, R438, R505) -/

/-- The Repeat bit (R53). -/
def State.repeatBit (s : State) : Bool := bitAt s.rsr 23

/-- RSR records a drawing sequence, type 100 (R53). -/
def State.rsrDrawing (s : State) : Bool := fieldAt s.rsr 2 4 == 4

/-- RSR records a load/unload sequence, type 011 (R53). -/
def State.rsrTransfer (s : State) : Bool := fieldAt s.rsr 2 4 == 3

/-- The device and manner in RSR: bit 7 and bits 16 to 18 (R438). -/
def State.rsrDm (s : State) : Nat := fieldAt s.rsr 7 7 * 8 + fieldAt s.rsr 16 18

/-- The register address in RSR (R438). -/
def State.rsrAddress (s : State) : DevAddr := Fin.ofNat 16 (fieldAt s.rsr 19 22)

/-- The register address is recorded (R438). -/
def State.setRsrAddress (s : State) (a : DevAddr) : State := { s with rsr := setFieldAt s.rsr 19 22 a.val }

/-- A load/unload sequence begins: RSR takes it from the instruction, Repeat set (R438). -/
def State.beginTransfer (s : State) (u sink : Bool) (dm : Nat) (a : DevAddr) : State :=
  let w := setFieldAt s.rsr 2 4 3
  let w := setBitAt (setBitAt w 5 u) 6 sink
  let w := setFieldAt (setFieldAt w 7 7 (dm / 8)) 16 18 (dm % 8)
  { s with rsr := setBitAt (setFieldAt w 19 22 a.val) 23 true }

/-- A sequence is finished: Repeat cleared (R438, R505). -/
def State.endRepeat (s : State) : State := { s with rsr := setBitAt s.rsr 23 false }

/-! ### The load/unload loops (R436, R437, R439, R476) -/

/-- The next register address: down for a retrieve, up for all else (R436, R437). -/
def nextAddress (u sink : Bool) (a : DevAddr) : DevAddr := if sink && !u then a - 1 else a + 1

/-- The counted loop (R436, R437, R477, R478), `n` bounding the iterations left, other agents acting between two of them. A condition stops
it with Repeat still set. -/
def State.transferLoop (act : Action) (u sink : Bool) : Nat → DevAddr → State → State
  | 0, _, s => s
  | n + 1, a, s =>
    match (s.setRsrAddress a).transferOnce act sink a with
    | (t, some c) => t.raise c
    | (t, none) =>
      let rc := t.reg Reg.rc
      if bitAt rc 0 then
        let t1 := t.setReg Reg.rc (rc + 1)
        if rc + 1 = 0 then t1.endRepeat else State.transferLoop act u sink n (nextAddress u sink a) t1.turn
      else t.endRepeat

/-- NOMM (R476): disregarded in 2D; RC is always zero afterwards. -/
def State.nomm (s : State) : State :=
  let t := if s.twoD then s else State.normalize (iterations (s.reg Reg.rc)) s
  (t.setReg Reg.rc 0).endRepeat

/-- The first Channel Control register of an X field (R425). -/
def xFirst : XSel → Reg
  | .sac0 => Reg.ac0
  | .sx => Reg.x
  | .sac2 => Reg.ac2
  | .sz => Reg.z
  | .dac0 => Reg.ac0
  | .dx => Reg.x

/-- Whether an X field moves two pipeline registers (R425). -/
def xDouble : XSel → Bool
  | .sac0 => false
  | .sx => false
  | .sac2 => false
  | .sz => false
  | .dac0 => true
  | .dx => true

/-- NW consecutive registers from `c`, modulo 16 (R425, D35). -/
def State.regTuple (s : State) (twoD : Bool) (c : Reg) : Tuple :=
  if twoD then .two (s.reg c) (s.reg (c + 1))
  else .four (s.reg c) (s.reg (c + 1)) (s.reg (c + 2)) (s.reg (c + 3))

/-- NW consecutive registers written from `c`, modulo 16 (R425, D35). -/
def State.setRegTuple (s : State) (c : Reg) : Tuple → State
  | .two d0 d1 => (s.setReg c d0).setReg (c + 1) d1
  | .four d0 d1 d2 d3 => (((s.setReg c d0).setReg (c + 1) d1).setReg (c + 2) d2).setReg (c + 3) d3

/-- The registers of the second transfer of a double X field (R425). -/
def secondGroup (twoD : Bool) (c : Reg) : Reg := if twoD then c + 2 else c + 4

/-- One transfer between Channel Control registers from `c` and pipeline register `a` (R439). DESIGN CHOICE: a register form that resumes
a slide, a push, a pop or a size load, which R423 gives no register form, does it through the registers of its X field (log 32). -/
def State.regTransferOnce (s : State) (act : Action) (c : Reg) (a : DevAddr) : State :=
  match act with
  | .load m => s.load m a (s.regTuple s.twoD c)
  | .retrieveSlide => (s.copyRow s.twoD a (rowOfA a)).setMmRow a (s.regTuple s.twoD c)
  | .unload v => s.setRegTuple c (s.unload s.twoD v a)
  | .sinkSlide => (s.setRegTuple c (s.unload s.twoD .matrix a)).copyRow s.twoD (rowOfA a) a
  | .push => s.copyRow s.twoD (rowOfA a) a
  | .pop => s.copyRow s.twoD a (rowOfA a)
  | .normalize => s.nomm

/-- A register form (R439): one transfer, or two to consecutive pipeline registers. -/
def State.regTransfer (s : State) (act : Action) (x : XSel) (a : DevAddr) : State :=
  let s1 := (s.setRsrAddress a).regTransferOnce act (xFirst x) a
  let s2 := if xDouble x then
      (s1.setRsrAddress (a + 1)).regTransferOnce act (secondGroup s.twoD (xFirst x)) (a + 1)
    else s1
  s2.endRepeat

/-- Where a load/unload instruction moves its words: through RP or DSP, or through registers (R421). -/
inductive TransferForm
  | pointer
  | registers (x : XSel)
deriving DecidableEq, Repr

/-- A load/unload sequence carried out, from its start or from where RSR says it stopped. DESIGN CHOICE: a combination that R423 marks with a
dash in the memory columns, which only a resumed RSR can give, is an unimplemented instruction (R479); one with a dash in the
register columns alone, resumed by a register form, is executed, uncounted (R438, R439; log 32). -/
def State.runTransfer (s : State) (form : TransferForm) (u sink : Bool) (dm : Nat) (a : DevAddr) : State :=
  match actionOf u sink dm with
  | none => s.raise .unimplemented
  | some .normalize => s.nomm
  | some act =>
    match form with
    | .pointer => State.transferLoop act u sink (iterations (s.reg Reg.rc)) a s
    | .registers x => s.regTransfer act x a

/-! ### The drawing step (R493, R495 to R497) -/

/-- The words fetched for one point: NF of them (R493). -/
inductive Fetched
  | two (d0 d1 : Word)
  | three (d0 d1 d2 : Word)
  | four (d0 d1 d2 d3 : Word)
deriving DecidableEq, Repr

/-- The fraction that stands for 1, 37777777 octal (R493, R533). -/
def almostOne : Word := 0x7FFFFF

/-- The coordinate `d` in a data form: itself, or added to the register of the current point (R492, R495). -/
def State.coordinate (s : State) (form : Form) (r : Reg) (d : Word) : Word :=
  match form with
  | .absolute => d
  | .relative => s.reg r + d
  | .variableOrigin => s.reg r + d

/-- Steps 1 and 2 of `DrawStep` (R495): the point sent, with the fourth word of the three-word modes supplied. -/
def State.formPoint (s : State) (form : Form) : Fetched → Tuple
  | .two d0 d1 => .two (s.coordinate form Reg.x d0) (s.coordinate form Reg.y d1)
  | .three d0 d1 d2 =>
    let z := s.coordinate form Reg.z d2
    .four (s.coordinate form Reg.x d0) (s.coordinate form Reg.y d1) z (if s.dim = .cd3d then z else almostOne)
  | .four d0 d1 d2 d3 => .four (s.coordinate form Reg.x d0) (s.coordinate form Reg.y d1) (s.coordinate form Reg.z d2)
      (s.coordinate form Reg.w d3)

/-- Whether an operation makes the new point current (R491, R495). -/
def DrawOp.movesPoint : DrawOp → Bool
  | .setPoint => true
  | .drawTo => true
  | .drawFrom => false
  | .dot => true
  | .box => false

/-- Whether a form writes the sum back to X, Y, Z, W (R492, R495). -/
def Form.updates : Form → Bool
  | .absolute => true
  | .relative => true
  | .variableOrigin => false

/-- `DrawStep(op, form, d)` (R495). -/
def State.drawStep (s : State) (op : DrawOp) (form : Form) (d : Fetched) : State :=
  let p := s.formPoint form d
  let s1 := if form.updates && op.movesPoint then s.setRegTuple Reg.x p else s
  s1.sendDraw op form (some p)

/-- The operation issued in a state of FSM1 (R496). -/
def fsm1Op : Fsm1 → DrawOp
  | .box => .box
  | .dot => .dot
  | .drawTo => .drawTo
  | .poly => .setPoint
  | .star => .setPoint
  | .drawFrom => .drawFrom
  | .line => .setPoint
  | .nline => .drawTo

/-- The next state of FSM1 (R496). -/
def fsm1Next : Fsm1 → Fsm1
  | .box => .box
  | .dot => .dot
  | .drawTo => .drawTo
  | .poly => .drawTo
  | .star => .drawFrom
  | .drawFrom => .drawFrom
  | .line => .nline
  | .nline => .line

/-- The data form used in a state of FSM2 (R497). -/
def fsm2Form : Fsm2 → Form
  | .av => .absolute
  | .vv => .variableOrigin
  | .aa => .absolute
  | .ra => .relative
  | .ar => .absolute
  | .rr => .relative
  | .ax => .absolute
  | .rx => .relative

/-- The next state of FSM2 (R497). -/
def fsm2Next : Fsm2 → Fsm2
  | .av => .vv
  | .vv => .vv
  | .aa => .aa
  | .ra => .aa
  | .ar => .rr
  | .rr => .rr
  | .ax => .rx
  | .rx => .ax

/-- The code of a state of FSM1 (R154). -/
def fsm1Code : Fsm1 → Nat
  | .box => 0
  | .dot => 1
  | .drawTo => 2
  | .poly => 3
  | .star => 4
  | .drawFrom => 5
  | .line => 6
  | .nline => 7

/-- The state of FSM1 of a code (R154). -/
def fsm1Of : Nat → Fsm1
  | 0 => .box
  | 1 => .dot
  | 2 => .drawTo
  | 3 => .poly
  | 4 => .star
  | 5 => .drawFrom
  | 6 => .line
  | _ => .nline

/-- The code of a state of FSM2 (R154). -/
def fsm2Code : Fsm2 → Nat
  | .av => 0
  | .vv => 1
  | .aa => 2
  | .ra => 3
  | .ar => 4
  | .rr => 5
  | .ax => 6
  | .rx => 7

/-- The state of FSM2 of a code (R154). -/
def fsm2Of : Nat → Fsm2
  | 0 => .av
  | 1 => .vv
  | 2 => .aa
  | 3 => .ra
  | 4 => .ar
  | 5 => .rr
  | 6 => .ax
  | _ => .rx

/-- The FSM states recorded in RSR (R505). -/
def State.setRsrFsm (s : State) (f1 : Fsm1) (f2 : Fsm2) : State :=
  { s with rsr := setFieldAt (setFieldAt s.rsr 5 7 (fsm1Code f1)) 16 18 (fsm2Code f2) }

/-- A drawing sequence begins: RSR takes it from the instruction, Repeat set (R505). -/
def State.beginDraw (s : State) (f1 : Fsm1) (f2 : Fsm2) : State :=
  let t : State := { s with rsr := setBitAt (setFieldAt s.rsr 2 4 4) 23 true }
  t.setRsrFsm f1 f2

/-! ### The drawing loops (R499, R500, R508 to R511) -/

/-- The NF words of a point read upward from `a`, or the first condition met and how many words were read before it (R493, R500,
R511); nothing holds the words of a point together (R694). -/
def State.readPoint (s : State) (a : Word) : Except Stopped (Fetched × State) := do
  let (d0, s0) ← s.readFirst a
  let (d1, s1) ← s0.readNext 1 (a + 1)
  match s.dim with
  | .twoD => pure (.two d0 d1, s1)
  | .homog => do
    let (d2, s2) ← s1.readNext 2 (a + 2)
    let (d3, s3) ← s2.readNext 3 (a + 3)
    pure (.four d0 d1 d2 d3, s3)
  | .mm3d => do
    let (d2, s2) ← s1.readNext 2 (a + 2)
    pure (.three d0 d1 d2, s2)
  | .cd3d => do
    let (d2, s2) ← s1.readNext 2 (a + 2)
    pure (.three d0 d1 d2, s2)

/-- NF as a word (R493). -/
def Dim.nf : Dim → Word
  | .twoD => 2
  | .homog => 4
  | .mm3d => 3
  | .cd3d => 3

/-- The point of a table draw, with RP after it; a condition leaves RP past the words already read, which is what a repeat instruction
keeps (R500, R511). -/
def State.tablePoint (s : State) (ind idx : Bool) : Except (Cond × State) (Fetched × State) :=
  let rp := s.reg Reg.rp
  if ind then
    match s.memRead rp with
    | .error c => .error (c, s)
    | .ok q =>
      let t := (s.setReg Reg.rp (rp + 1)).gap
      match t.readPoint (if idx then q + t.reg Reg.ir else q) with
      | .ok d => .ok d
      | .error e => .error (e.1, e.2.2)
  else
    match s.readPoint rp with
    | .ok (d, t) => .ok (d, t.setReg Reg.rp (rp + t.dim.nf))
    | .error e => .error (e.1, e.2.2.setReg Reg.rp (rp + e.2.1))

/-- `TableDraw` without repeat, TD, TDI and TDIX (R500): one operation, RC not examined. A condition of a read leaves every register and RSR
as they were (R604, D25; log 33). -/
def State.tableOnce (s : State) (ind idx : Bool) (f1 : Fsm1) (f2 : Fsm2) : State :=
  match s.tablePoint ind idx with
  | .error e => State.raise { e.2 with regs := s.regs } e.1
  | .ok (d, t) =>
    (((t.beginDraw f1 f2).drawStep (fsm1Op f1) (fsm2Form f2) d).setRsrFsm (fsm1Next f1) (fsm2Next f2)).endRepeat

/-- `TableDraw` with repeat, TDR, TDIR and TDIXR (R500), `n` bounding the operations left. A condition leaves the operations before it done, RP
past the words read, and Repeat set with the states of the operation that failed (R511). -/
def State.tableDraw (ind idx : Bool) : Nat → Fsm1 → Fsm2 → State → State
  | 0, _, _, s => s
  | n + 1, f1, f2, s =>
    match s.tablePoint ind idx with
    | .error e => e.2.raise e.1
    | .ok (d, t) =>
      let t1 := (t.drawStep (fsm1Op f1) (fsm2Form f2) d).setRsrFsm (fsm1Next f1) (fsm2Next f2)
      let rc := t1.reg Reg.rc
      if bitAt rc 0 then
        let t2 := t1.setReg Reg.rc (rc + 1)
        if rc + 1 = 0 then t2.endRepeat else State.tableDraw ind idx n (fsm1Next f1) (fsm2Next f2) t2.turn
      else t1.endRepeat

/-- The loop of the Matrix Multiplier draws (R509, R510). -/
def State.matrixDraw (rep : Bool) : Nat → Fsm1 → Fsm2 → State → State
  | 0, _, _, s => s
  | n + 1, f1, f2, s =>
    let t1 := (s.sendDraw (fsm1Op f1) .absolute none).setRsrFsm (fsm1Next f1) (fsm2Next f2)
    let rc := t1.reg Reg.rc
    if rep && bitAt rc 0 then
      let t2 := t1.setReg Reg.rc (rc + 1)
      if rc + 1 = 0 then t2.endRepeat else State.matrixDraw rep n (fsm1Next f1) (fsm2Next f2) t2.turn
    else t1.endRepeat

/-- The words of NW registers as fetched words: no fourth word is supplied (R508). -/
def Tuple.fetched : Tuple → Fetched
  | .two d0 d1 => .two d0 d1
  | .four d0 d1 d2 d3 => .four d0 d1 d2 d3

/-- RD (R508): one operation, or two, the second point read after the first operation. -/
def State.registerDraw (s : State) (x : XSel) (f1 : Fsm1) (f2 : Fsm2) : State :=
  let s1 := (s.drawStep (fsm1Op f1) (fsm2Form f2) (s.regTuple s.twoD (xFirst x)).fetched).setRsrFsm (fsm1Next f1) (fsm2Next f2)
  if xDouble x then
    let s2 := s1.turn
    let g1 := fsm1Next f1
    let g2 := fsm2Next f2
    let d := (s2.regTuple s2.twoD (secondGroup s2.twoD (xFirst x))).fetched
    ((s2.drawStep (fsm1Op g1) (fsm2Form g2) d).setRsrFsm (fsm1Next g1) (fsm2Next g2)).endRepeat
  else s1.endRepeat

/-- The classes of repeat drawing instructions (R490). -/
inductive DrawClass
  | table (ind idx rep : Bool)
  | matrix (rep : Bool)
  | register (x : XSel)
deriving DecidableEq, Repr

/-- A drawing sequence carried out from given FSM states, which RSR records as it begins (R500, R505, R508, R509). -/
def State.runDraw (s : State) (c : DrawClass) (f1 : Fsm1) (f2 : Fsm2) : State :=
  match c with
  | .table ind idx true => State.tableDraw ind idx (iterations (s.reg Reg.rc)) f1 f2 (s.beginDraw f1 f2)
  | .table ind idx false => s.tableOnce ind idx f1 f2
  | .matrix rep => State.matrixDraw rep (iterations (s.reg Reg.rc)) f1 f2 (s.beginDraw f1 f2)
  | .register x => (s.beginDraw f1 f2).registerDraw x f1 f2

/-- The drawing sequence RSR records, resumed (R505). RSR, recorded anew, stays as it is. -/
def State.resumeDraw (s : State) (c : DrawClass) : State :=
  s.runDraw c (fsm1Of (fieldAt s.rsr 5 7)) (fsm2Of (fieldAt s.rsr 16 18))

/-- The load/unload sequence RSR records, resumed (R438). -/
def State.resumeTransfer (s : State) (form : TransferForm) : State :=
  s.runTransfer form (bitAt s.rsr 5) (bitAt s.rsr 6) s.rsrDm s.rsrAddress

/-- A load/unload instruction (R430, R438): wait for the pipeline to settle, then resume what RSR records or begin. `c` is
the drawing class that the instruction's word selects if RSR records a drawing sequence (log 32). -/
def State.startTransfer (s : State) (form : TransferForm) (c : DrawClass) (u sink : Bool) (dm : Nat) (a : DevAddr) : State :=
  let t := s.settle
  if t.repeatBit then
    if t.rsrDrawing then t.resumeDraw c else t.resumeTransfer form
  else (t.beginTransfer u sink dm a).runTransfer form u sink dm a

/-- A repeat drawing instruction (R505): resume what RSR records or begin. A load/unload sequence is resumed with the pipeline
settled, through registers for RD and through RP or DSP for the others (log 32). -/
def State.startDraw (s : State) (c : DrawClass) (f1 : Fsm1) (f2 : Fsm2) : State :=
  if s.repeatBit && s.rsrDrawing then s.resumeDraw c
  else if s.repeatBit && s.rsrTransfer then
    s.settle.resumeTransfer (match c with | .register x => .registers x | .table .. => .pointer | .matrix _ => .pointer)
  else s.runDraw c f1 f2

end Sys2Proof.Machine
end

