-- ==== Sys2Proof/Machine/Draw.lean ====
section
/-!
DEFINITION. Drawing instructions (48_drawing.md).
-/

namespace Sys2Proof.Machine

/-- The operation and the data form of a manner (R494). -/
def mannerOp : Manner → DrawOp × Form
  | .seta => (.setPoint, .absolute)
  | .setr => (.setPoint, .relative)
  | .setv => (.setPoint, .variableOrigin)
  | .toa => (.drawTo, .absolute)
  | .tor => (.drawTo, .relative)
  | .tov => (.drawTo, .variableOrigin)
  | .dota => (.dot, .absolute)
  | .dotr => (.dot, .relative)
  | .dotv => (.dot, .variableOrigin)
  | .boxa => (.box, .absolute)
  | .boxr => (.box, .relative)
  | .frma => (.drawFrom, .absolute)
  | .frmr => (.drawFrom, .relative)

/-- The FSM1 state SD records for an operation (R505). -/
def opFsm1 : DrawOp → Fsm1
  | .setPoint => .poly
  | .drawTo => .drawTo
  | .drawFrom => .drawFrom
  | .dot => .dot
  | .box => .box

/-- The FSM2 state SD records for a form (R505). -/
def formFsm2 : Form → Fsm2
  | .absolute => .aa
  | .relative => .rr
  | .variableOrigin => .vv

/-- A single draw from the address `a` (R498); RSR records it as a drawing instruction and its Repeat bit is left as it is (R505). -/
def State.singleDraw (s : State) (man : Manner) (a : Word) : State :=
  let m := mannerOp man
  match s.readPoint a with
  | .ok (d, u) =>
    let t := u.drawStep m.1 m.2 d
    ({ t with rsr := setFieldAt t.rsr 2 4 4 } : State).setRsrFsm (opFsm1 m.1) (formFsm2 m.2)
  | .error e => e.2.2.raise e.1

/-- SD (R498). -/
def execSd (i x : Bool) (man : Manner) (addr : BitVec 16) (s : State) : Host.Outcome State Fault Refusal :=
  .next (s.withEA i x addr fun t e => t.singleDraw man e)

/-- TD (R504). -/
def execTd (f1 : Fsm1) (f2 : Fsm2) (s : State) : Host.Outcome State Fault Refusal :=
  .next (s.startDraw (.table false false false) f1 f2)

/-- TDR (R501). -/
def execTdr (f1 : Fsm1) (f2 : Fsm2) (s : State) : Host.Outcome State Fault Refusal :=
  .next (s.startDraw (.table false false true) f1 f2)

/-- TDI (R506). -/
def execTdi (f1 : Fsm1) (f2 : Fsm2) (s : State) : Host.Outcome State Fault Refusal :=
  .next (s.startDraw (.table true false false) f1 f2)

/-- TDIR (R502). -/
def execTdir (f1 : Fsm1) (f2 : Fsm2) (s : State) : Host.Outcome State Fault Refusal :=
  .next (s.startDraw (.table true false true) f1 f2)

/-- TDIX (R507). -/
def execTdix (f1 : Fsm1) (f2 : Fsm2) (s : State) : Host.Outcome State Fault Refusal :=
  .next (s.startDraw (.table true true false) f1 f2)

/-- TDIXR (R503). -/
def execTdixr (f1 : Fsm1) (f2 : Fsm2) (s : State) : Host.Outcome State Fault Refusal :=
  .next (s.startDraw (.table true true true) f1 f2)

/-- RD (R508). -/
def execRd (f1 : Fsm1) (f2 : Fsm2) (x : XSel) (s : State) : Host.Outcome State Fault Refusal :=
  .next (s.startDraw (.register x) f1 f2)

/-- MMD (R510). -/
def execMmd (f1 : Fsm1) (s : State) : Host.Outcome State Fault Refusal :=
  .next (s.startDraw (.matrix false) f1 .aa)

/-- MMDR (R509). -/
def execMmdr (f1 : Fsm1) (s : State) : Host.Outcome State Fault Refusal :=
  .next (s.startDraw (.matrix true) f1 .aa)

end Sys2Proof.Machine
end

