-- ==== Sys2Proof/Machine/Iot.lean ====
section
/-!
DEFINITION. The IOT instruction and its device codes (46_iot.md).
-/

namespace Sys2Proof.Machine

/-- The device code of an IOT: the whole 16-bit field, or its low 8 bits under IOT_DEV_HIGH_IGNORED (R383). -/
def deviceCode (highIgnored : Bool) (dev : BitVec 16) : Nat := if highIgnored then dev.toNat % 256 else dev.toNat

/-- The codes a user may issue: 030 to 033 and 036 octal (R382). -/
def userLegal (d : Nat) : Bool := d == 0x18 || d == 0x19 || d == 0x1A || d == 0x1B || d == 0x1E

/-- The action of an implemented device code, none of any other (R381, R385 to R405). Codes in octal. DESIGN CHOICE: a condition bit that IOT
002 sets to 1 is loaded, not raised: it is tested at test point (A) of the next cycle, not at (B) at the end of the IOT, and sets no PROT_FF;
R386 says only that it is set as if it had occurred (log 69). -/
def State.iotAction (s : State) (r : Reg) (d : Nat) : Option State :=
  match d with
  | 0x01 => some (s.setReg r s.icr)  -- 001
  | 0x02 => some { s with icr := s.reg r }  -- 002
  | 0x03 => some (s.setReg r s.imr)  -- 003
  | 0x04 => some { s with imr := s.reg r }  -- 004
  | 0x05 => some (s.setReg r (s.iodce.setWidth 24))  -- 005
  | 0x06 => some { s with iodce := (s.reg r).setWidth 8 }  -- 006
  | 0x07 => some { s with pendIon := true }  -- 007
  | 0x08 => some { s with sleeping := true }  -- 010
  | 0x09 => some { s with pendUser := true }  -- 011
  | 0x10 => some (s.setReg r s.switches)  -- 020
  | 0x11 => some { s with lights := s.reg r }  -- 021
  | 0x16 => some { s with sync := s.reg r }  -- 026
  | 0x17 => some (s.setReg r s.sync)  -- 027
  | 0x18 => some { s with rsr := s.reg r }  -- 030
  | 0x19 => some (s.setReg r s.rsr)  -- 031
  | 0x1A => some (s.loadDir (s.reg r))  -- 032
  | 0x1B => some (s.setReg r s.dirRead)  -- 033
  | 0x1E => some (s.skipIf s.settled)  -- 036
  | 0x20 => some { s with attention := true }  -- 040
  | 0x21 => some (s.skipIf (!s.attention))  -- 041
  | 0x22 => some { s with protection := s.reg r }  -- 042
  | 0x23 => some (s.setReg r s.protection)  -- 043
  | 0x24 => some { s with protFF := false }  -- 044
  | 0x25 => some (s.setReg r s.bar)  -- 045
  | 0x26 => some { s with bar := s.reg r }  -- 046
  | _ => none

/-- An illegal or nonexistent IOT: the low 8 bits of its code are saved, Nonexistent I/O Device is raised, nothing else happens
(R383). -/
def State.illegalIot (s : State) (dev : BitVec 16) : State :=
  ({ s with iodce := dev.setWidth 8 } : State).raise .nonexistentDevice

/-- An IOT: the action of its code if it is implemented and the mode may issue it (R383, R384). -/
def State.iot (s : State) (r : Reg) (dev : BitVec 16) : State :=
  let d := deviceCode s.params.iotDevHighIgnored dev
  match s.iotAction r d with
  | some t => if s.mode = .executive ∨ userLegal d then t else s.illegalIot dev
  | none => s.illegalIot dev

/-- IOT (R384). -/
def execIot (r : Reg) (dev : BitVec 16) (s : State) : Host.Outcome State Fault Refusal :=
  .next (s.iot r dev)

/-- SLEEP (R392: IOT ,010). -/
def execSleep (s : State) : Host.Outcome State Fault Refusal :=
  .next (s.iot Reg.ac0 0x0008)

end Sys2Proof.Machine
end

