-- ==== Sys2Proof/Machine/LoadStore.lean ====
section
/-!
DEFINITION. Loading and storing the Channel Control registers (40_load_store.md).
-/

namespace Sys2Proof.Machine

/-- LO (R200). -/
def execLo (i : Bool) (r : Reg) (addr : BitVec 16) (s : State) : Host.Outcome State Fault Refusal :=
  .next (s.withEA i false addr fun t e => t.withRead e fun v => t.setReg r v)

/-- ST (R201). -/
def execSt (i : Bool) (r : Reg) (addr : BitVec 16) (s : State) : Host.Outcome State Fault Refusal :=
  .next (s.withEA i false addr fun t e => t.withWrite e (t.reg r) id)

/-- RLO (R202). -/
def execRlo (r1 r2 : Reg) (s : State) : Host.Outcome State Fault Refusal :=
  .next (s.setReg r1 (s.reg r2))

/-- RLOZ (R203). -/
def execRloz (r1 r2 : Reg) (s : State) : Host.Outcome State Fault Refusal :=
  .next ((s.setReg r1 (s.reg r2)).skipIf (decide (s.reg r2 = 0)))

/-- ILO (R204). -/
def execIlo (r : Reg) (n : BitVec 12) (s : State) : Host.Outcome State Fault Refusal :=
  .next (s.setReg r (zext n))

/-- ILOM (R205). -/
def execIlom (r : Reg) (n : BitVec 12) (s : State) : Host.Outcome State Fault Refusal :=
  .next (s.setReg r (0 - zext n))

/-- ILOZ (R206). -/
def execIloz (r : Reg) (n : BitVec 12) (s : State) : Host.Outcome State Fault Refusal :=
  .next ((s.setReg r (zext n)).skipIf (decide (zext n = 0)))

/-- ILOMZ (R207). -/
def execIlomz (r : Reg) (n : BitVec 12) (s : State) : Host.Outcome State Fault Refusal :=
  .next ((s.setReg r (0 - zext n)).skipIf (decide (0 - zext n = 0)))

end Sys2Proof.Machine
end

