-- ==== Sys2Proof/Machine/LoadUnload.lean ====
section
/-!
DEFINITION. Load and unload of the pipeline registers (47_pipeline_load_unload.md).
-/

namespace Sys2Proof.Machine

/-- A memory form, bits 20 to 23 = 0110 (R421, R436). If RSR records a drawing sequence the word's bits select a table draw (log 32). -/
def State.memoryForm (s : State) (u : Bool) (dm : Nat) (da : DevAddr) : State :=
  s.startTransfer .pointer (.table u false (decide (8 ≤ da.val))) u false dm da

/-- A sink or retrieve form, bits 20 to 23 = 0111 (R421, R437). If RSR records a drawing sequence the word's bits select a Matrix
Multiplier draw (log 32). -/
def State.sinkForm (s : State) (u : Bool) (dm : Nat) (da : DevAddr) : State :=
  s.startTransfer .pointer (.matrix (decide (8 ≤ da.val))) u true dm da

/-- A register form, bits 20 to 23 = 0xxx (R421, R439). If RSR records a drawing sequence the word's bits select a register draw
(log 32). -/
def State.registerForm (s : State) (u : Bool) (dm : Nat) (da : DevAddr) (x : XSel) : State :=
  s.startTransfer (.registers x) (.register x) u false dm da

/-- LOCLA (R445). -/
def execLocla (da : DevAddr) (s : State) : Host.Outcome State Fault Refusal :=
  .next (s.memoryForm false 0 da)

/-- LOCLR (R446). -/
def execLoclr (da : DevAddr) (s : State) : Host.Outcome State Fault Refusal :=
  .next (s.memoryForm false 1 da)

/-- LOCLSA (R447). -/
def execLoclsa (da : DevAddr) (s : State) : Host.Outcome State Fault Refusal :=
  .next (s.memoryForm false 2 da)

/-- LOCLSR (R448). -/
def execLoclsr (da : DevAddr) (s : State) : Host.Outcome State Fault Refusal :=
  .next (s.memoryForm false 3 da)

/-- LOMMA (R449). -/
def execLomma (da : DevAddr) (s : State) : Host.Outcome State Fault Refusal :=
  .next (s.memoryForm false 4 da)

/-- LOMMR (R450). -/
def execLommr (da : DevAddr) (s : State) : Host.Outcome State Fault Refusal :=
  .next (s.memoryForm false 5 da)

/-- LOMMP (R451). -/
def execLommp (da : DevAddr) (s : State) : Host.Outcome State Fault Refusal :=
  .next (s.memoryForm false 6 da)

/-- LOMDR (R452). -/
def execLomdr (s : State) : Host.Outcome State Fault Refusal :=
  .next (s.memoryForm false 7 0)

/-- STCL (R453). -/
def execStcl (da : DevAddr) (s : State) : Host.Outcome State Fault Refusal :=
  .next (s.memoryForm true 0 da)

/-- STMM (R454). -/
def execStmm (da : DevAddr) (s : State) : Host.Outcome State Fault Refusal :=
  .next (s.memoryForm true 4 da)

/-- NOMM (R476). -/
def execNomm (s : State) : Host.Outcome State Fault Refusal :=
  .next (s.memoryForm true 5 0)

/-- POPMM (R478). -/
def execPopmm (da : DevAddr) (s : State) : Host.Outcome State Fault Refusal :=
  .next (s.memoryForm true 6 da)

/-- STMDR (R455). -/
def execStmdr (s : State) : Host.Outcome State Fault Refusal :=
  .next (s.memoryForm true 7 0)

/-- RTCLA (R465). -/
def execRtcla (da : DevAddr) (s : State) : Host.Outcome State Fault Refusal :=
  .next (s.sinkForm false 0 da)

/-- RTCLR (R466). -/
def execRtclr (da : DevAddr) (s : State) : Host.Outcome State Fault Refusal :=
  .next (s.sinkForm false 1 da)

/-- RTCLSA (R467). -/
def execRtclsa (da : DevAddr) (s : State) : Host.Outcome State Fault Refusal :=
  .next (s.sinkForm false 2 da)

/-- RTCLSR (R468). -/
def execRtclsr (da : DevAddr) (s : State) : Host.Outcome State Fault Refusal :=
  .next (s.sinkForm false 3 da)

/-- RTMM (R471). -/
def execRtmm (da : DevAddr) (s : State) : Host.Outcome State Fault Refusal :=
  .next (s.sinkForm false 4 da)

/-- RTMMS (R472). -/
def execRtmms (da : DevAddr) (s : State) : Host.Outcome State Fault Refusal :=
  .next (s.sinkForm false 5 da)

/-- RTMDR (R469). -/
def execRtmdr (s : State) : Host.Outcome State Fault Refusal :=
  .next (s.sinkForm false 7 0)

/-- SKCL (R470). -/
def execSkcl (da : DevAddr) (s : State) : Host.Outcome State Fault Refusal :=
  .next (s.sinkForm true 0 da)

/-- SKMM (R473). -/
def execSkmm (da : DevAddr) (s : State) : Host.Outcome State Fault Refusal :=
  .next (s.sinkForm true 4 da)

/-- SKMMS (R474). -/
def execSkmms (da : DevAddr) (s : State) : Host.Outcome State Fault Refusal :=
  .next (s.sinkForm true 5 da)

/-- PUSHMM (R477). -/
def execPushmm (da : DevAddr) (s : State) : Host.Outcome State Fault Refusal :=
  .next (s.sinkForm true 6 da)

/-- SKMDR (R475). -/
def execSkmdr (s : State) : Host.Outcome State Fault Refusal :=
  .next (s.sinkForm true 7 0)

/-- RLOCLA (R456). -/
def execRlocla (da : DevAddr) (x : XSel) (s : State) : Host.Outcome State Fault Refusal :=
  .next (s.registerForm false 0 da x)

/-- RLOCLR (R457). -/
def execRloclr (da : DevAddr) (x : XSel) (s : State) : Host.Outcome State Fault Refusal :=
  .next (s.registerForm false 1 da x)

/-- RLOMMA (R458). -/
def execRlomma (da : DevAddr) (x : XSel) (s : State) : Host.Outcome State Fault Refusal :=
  .next (s.registerForm false 4 da x)

/-- RLOMMR (R459). -/
def execRlommr (da : DevAddr) (x : XSel) (s : State) : Host.Outcome State Fault Refusal :=
  .next (s.registerForm false 5 da x)

/-- RLOMMP (R460). -/
def execRlommp (da : DevAddr) (x : XSel) (s : State) : Host.Outcome State Fault Refusal :=
  .next (s.registerForm false 6 da x)

/-- RSTCL (R462). -/
def execRstcl (da : DevAddr) (x : XSel) (s : State) : Host.Outcome State Fault Refusal :=
  .next (s.registerForm true 0 da x)

/-- RSTMM (R463). -/
def execRstmm (da : DevAddr) (x : XSel) (s : State) : Host.Outcome State Fault Refusal :=
  .next (s.registerForm true 4 da x)

/-- RLOMDR (R461). -/
def execRlomdr (x : XSel) (s : State) : Host.Outcome State Fault Refusal :=
  .next (s.registerForm false 7 0 x)

/-- RSTMDR (R464). -/
def execRstmdr (x : XSel) (s : State) : Host.Outcome State Fault Refusal :=
  .next (s.registerForm true 7 0 x)

end Sys2Proof.Machine
end

