-- ==== Sys2Proof/Machine/Shift.lean ====
section
/-!
DEFINITION. Shifting, masking and bit manipulation (45_shift_mask_bit.md).
-/

namespace Sys2Proof.Machine

/-- A single-register shift or mask (R343, R352). -/
def State.shiftReg (s : State) (r : Reg) (f : Word → Word) : State := s.setReg r (f (s.reg r))

/-- The pair R and R+1 as one 48-bit value, R the more significant; R+1 is taken modulo 16 (R340, R347, D22). -/
def State.pair (s : State) (r : Reg) : BitVec 48 := s.reg r ++ s.reg (r + 1)

/-- The pair R and R+1 replaced (R347 to R349). -/
def State.setPair (s : State) (r : Reg) (v : BitVec 48) : State :=
  (s.setReg r (v.extractLsb' 24 24)).setReg (r + 1) (v.extractLsb' 0 24)

/-- A left shift of one register; Overflow under OVERFLOW_UNARY only (R273, R346). -/
def State.leftShift (s : State) (r : Reg) (b : Nat) : State :=
  (s.setReg r (s.reg r <<< b)).raiseIf (s.params.overflowUnary && shiftOverflow (s.reg r) b) .overflow

/-- A left shift of a pair; Overflow under OVERFLOW_UNARY only (R273, R349). -/
def State.leftShiftPair (s : State) (r : Reg) (b : Nat) : State :=
  (s.setPair r (s.pair r <<< b)).raiseIf (s.params.overflowUnary && shiftOverflow48 (s.pair r) b) .overflow

/-- `MR` (R353): bits b to 23 cleared; nothing for a bit number above 23 (R341). -/
def maskRight (v : Word) (b : Nat) : Word := (v >>> (24 - b)) <<< (24 - b)

/-- `ML` (R354): bits 0 to b cleared; all of them for a bit number above 23 (R341). -/
def maskLeft (v : Word) (b : Nat) : Word := (v <<< (b + 1)) >>> (b + 1)

/-- A bit instruction: test bit b for `want` if there is one, then replace it by `put` if there is one (R360). A bit number above 23
tests as 0 and changes nothing (R341). -/
def State.bitOp (s : State) (r : Reg) (b : Nat) (want put : Option Bool) : State :=
  let v := s.reg r
  let t := match put with
    | some p => s.setReg r (setBitAt v b p)
    | none => s
  match want with
  | some w => t.skipIf (bitAt v b == w)
  | none => t

/-- CSHR (R350). -/
def execCshr (r : Reg) (b : BitCount) (s : State) : Host.Outcome State Fault Refusal :=
  .next (s.shiftReg r fun v => v.rotateRight (b.val % 24))

/-- CSHL (R351). -/
def execCshl (r : Reg) (b : BitCount) (s : State) : Host.Outcome State Fault Refusal :=
  .next (s.shiftReg r fun v => v.rotateLeft (b.val % 24))

/-- LSHR (R345). -/
def execLshr (r : Reg) (b : BitCount) (s : State) : Host.Outcome State Fault Refusal :=
  .next (s.shiftReg r fun v => v >>> b.val)

/-- LSHL (R346). -/
def execLshl (r : Reg) (b : BitCount) (s : State) : Host.Outcome State Fault Refusal :=
  .next (s.leftShift r b.val)

/-- ASHL (R346). -/
def execAshl (r : Reg) (b : BitCount) (s : State) : Host.Outcome State Fault Refusal :=
  .next (s.leftShift r b.val)

/-- ASHR (R344). -/
def execAshr (r : Reg) (b : BitCount) (s : State) : Host.Outcome State Fault Refusal :=
  .next (s.shiftReg r fun v => v.sshiftRight b.val)

/-- ASHRD (R347). -/
def execAshrd (r : Reg) (b : BitCount) (s : State) : Host.Outcome State Fault Refusal :=
  .next (s.setPair r ((s.pair r).sshiftRight b.val))

/-- LSHRD (R348). -/
def execLshrd (r : Reg) (b : BitCount) (s : State) : Host.Outcome State Fault Refusal :=
  .next (s.setPair r (s.pair r >>> b.val))

/-- LSHLD (R349). -/
def execLshld (r : Reg) (b : BitCount) (s : State) : Host.Outcome State Fault Refusal :=
  .next (s.leftShiftPair r b.val)

/-- ASHLD (R349). -/
def execAshld (r : Reg) (b : BitCount) (s : State) : Host.Outcome State Fault Refusal :=
  .next (s.leftShiftPair r b.val)

/-- MR (R353). -/
def execMr (r : Reg) (b : BitCount) (s : State) : Host.Outcome State Fault Refusal :=
  .next (s.shiftReg r fun v => maskRight v b.val)

/-- ML (R354). -/
def execMl (r : Reg) (b : BitCount) (s : State) : Host.Outcome State Fault Refusal :=
  .next (s.shiftReg r fun v => maskLeft v b.val)

/-- SOB (R361). -/
def execSob (r : Reg) (b : BitCount) (s : State) : Host.Outcome State Fault Refusal :=
  .next (s.bitOp r b.val (some true) none)

/-- SZB (R362). -/
def execSzb (r : Reg) (b : BitCount) (s : State) : Host.Outcome State Fault Refusal :=
  .next (s.bitOp r b.val (some false) none)

/-- CLB (R363). -/
def execClb (r : Reg) (b : BitCount) (s : State) : Host.Outcome State Fault Refusal :=
  .next (s.bitOp r b.val none (some false))

/-- SETB (R364). -/
def execSetb (r : Reg) (b : BitCount) (s : State) : Host.Outcome State Fault Refusal :=
  .next (s.bitOp r b.val none (some true))

/-- SOBCL (R365). -/
def execSobcl (r : Reg) (b : BitCount) (s : State) : Host.Outcome State Fault Refusal :=
  .next (s.bitOp r b.val (some true) (some false))

/-- SZBCL (R366). -/
def execSzbcl (r : Reg) (b : BitCount) (s : State) : Host.Outcome State Fault Refusal :=
  .next (s.bitOp r b.val (some false) (some false))

/-- SOBSET (R367). -/
def execSobset (r : Reg) (b : BitCount) (s : State) : Host.Outcome State Fault Refusal :=
  .next (s.bitOp r b.val (some true) (some true))

/-- SZBSET (R368). -/
def execSzbset (r : Reg) (b : BitCount) (s : State) : Host.Outcome State Fault Refusal :=
  .next (s.bitOp r b.val (some false) (some true))

end Sys2Proof.Machine
end

