-- ==== Sys2Proof/Machine/Stack.lean ====
section
/-!
DEFINITION. Stack control: register-addressed push and pop (42_stack.md).
-/

namespace Sys2Proof.Machine

/-- PUSH (R250). -/
def execPush (r1 r2 : Reg) (s : State) : Host.Outcome State Fault Refusal :=
  .next (s.pushPlain r1 r2)

/-- IPUSH (R251). -/
def execIpush (r1 r2 : Reg) (s : State) : Host.Outcome State Fault Refusal :=
  .next (s.pushBefore r1 r2 stepUp)

/-- PUSHI (R252). -/
def execPushi (r1 r2 : Reg) (s : State) : Host.Outcome State Fault Refusal :=
  .next (s.pushAfter r1 r2 stepUp)

/-- DPUSH (R253). -/
def execDpush (r1 r2 : Reg) (s : State) : Host.Outcome State Fault Refusal :=
  .next (s.pushBefore r1 r2 stepDown)

/-- PUSHD (R254). -/
def execPushd (r1 r2 : Reg) (s : State) : Host.Outcome State Fault Refusal :=
  .next (s.pushAfter r1 r2 stepDown)

/-- POP (R255). -/
def execPop (r1 r2 : Reg) (s : State) : Host.Outcome State Fault Refusal :=
  .next (s.popPlain r1 r2)

/-- IPOP (R256). -/
def execIpop (r1 r2 : Reg) (s : State) : Host.Outcome State Fault Refusal :=
  .next (s.popBefore r1 r2 stepUp)

/-- POPI (R257). -/
def execPopi (r1 r2 : Reg) (s : State) : Host.Outcome State Fault Refusal :=
  .next (s.popAfter r1 r2 stepUp)

/-- DPOP (R258). -/
def execDpop (r1 r2 : Reg) (s : State) : Host.Outcome State Fault Refusal :=
  .next (s.popBefore r1 r2 stepDown)

/-- POPD (R259). -/
def execPopd (r1 r2 : Reg) (s : State) : Host.Outcome State Fault Refusal :=
  .next (s.popAfter r1 r2 stepDown)

end Sys2Proof.Machine
end

