-- ==== Sys2Proof/Machine/Unary.lean ====
section
/-!
DEFINITION. Compare instructions and unary instructions (44_compare_unary.md).
-/

namespace Sys2Proof.Machine

/-- The eight unary operations (R310 to R316, R330). -/
inductive UnaryOp
  | dec | inc | com | neg | tst | zr | abv | slo
deriving DecidableEq, Repr

/-- The new contents of the register, from its old contents and the console switches (R310 to R316, R330). -/
def UnaryOp.result (op : UnaryOp) (v switches : Word) : Word :=
  match op with
  | .dec => v - 1
  | .inc => v + 1
  | .com => ~~~v
  | .neg => 0 - v
  | .tst => v
  | .zr => 0
  | .abv => if bitAt v 0 then 0 - v else v
  | .slo => switches

/-- The operations that raise Overflow under OVERFLOW_UNARY, and when (R273, R607, D27). -/
def UnaryOp.overflow (op : UnaryOp) (v : Word) : Bool :=
  match op with
  | .dec => subOverflow v 1
  | .inc => addOverflow v 1
  | .com => false
  | .neg => subOverflow 0 v
  | .tst => false
  | .zr => false
  | .abv => bitAt v 0 && subOverflow 0 v
  | .slo => false

/-- A unary instruction: the operation, then the test of the new contents (R308, R309). -/
def State.unary (s : State) (op : UnaryOp) (k : Relation) (r : Reg) : State :=
  let v := op.result (s.reg r) s.switches
  ((s.setReg r v).skipIf (k.holds v)).raiseIf (s.params.overflowUnary && op.overflow (s.reg r)) .overflow

/-- A compare: skip if `c` (R299). -/
def State.compare (s : State) (c : Bool) : State := s.skipIf c

/-- CE (R300). -/
def execCe (r1 r2 : Reg) (s : State) : Host.Outcome State Fault Refusal :=
  .next (s.compare (decide (s.reg r1 = s.reg r2)))

/-- CNE (R301). -/
def execCne (r1 r2 : Reg) (s : State) : Host.Outcome State Fault Refusal :=
  .next (s.compare (decide (s.reg r1 ≠ s.reg r2)))

/-- CEI (R302). -/
def execCei (r : Reg) (n : BitVec 12) (s : State) : Host.Outcome State Fault Refusal :=
  .next (s.compare (decide (s.reg r = zext n)))

/-- CNEI (R303). -/
def execCnei (r : Reg) (n : BitVec 12) (s : State) : Host.Outcome State Fault Refusal :=
  .next (s.compare (decide (s.reg r ≠ zext n)))

/-- CEMI (R304). -/
def execCemi (r : Reg) (n : BitVec 12) (s : State) : Host.Outcome State Fault Refusal :=
  .next (s.compare (decide (s.reg r = 0 - zext n)))

/-- CNEMI (R305). -/
def execCnemi (r : Reg) (n : BitVec 12) (s : State) : Host.Outcome State Fault Refusal :=
  .next (s.compare (decide (s.reg r ≠ 0 - zext n)))

/-- DEC (R310, R309). -/
def execDec (r : Reg) (s : State) : Host.Outcome State Fault Refusal :=
  .next (s.unary .dec .never r)

/-- DECE (R310, R309). -/
def execDece (r : Reg) (s : State) : Host.Outcome State Fault Refusal :=
  .next (s.unary .dec .eq r)

/-- DECG (R310, R309). -/
def execDecg (r : Reg) (s : State) : Host.Outcome State Fault Refusal :=
  .next (s.unary .dec .gt r)

/-- DECGE (R310, R309). -/
def execDecge (r : Reg) (s : State) : Host.Outcome State Fault Refusal :=
  .next (s.unary .dec .ge r)

/-- DECL (R310, R309). -/
def execDecl (r : Reg) (s : State) : Host.Outcome State Fault Refusal :=
  .next (s.unary .dec .lt r)

/-- DECLE (R310, R309). -/
def execDecle (r : Reg) (s : State) : Host.Outcome State Fault Refusal :=
  .next (s.unary .dec .le r)

/-- DECNE (R310, R309). -/
def execDecne (r : Reg) (s : State) : Host.Outcome State Fault Refusal :=
  .next (s.unary .dec .ne r)

/-- DECA (R310, R309). -/
def execDeca (r : Reg) (s : State) : Host.Outcome State Fault Refusal :=
  .next (s.unary .dec .always r)

/-- INC (R311, R309). -/
def execInc (r : Reg) (s : State) : Host.Outcome State Fault Refusal :=
  .next (s.unary .inc .never r)

/-- INCE (R311, R309). -/
def execInce (r : Reg) (s : State) : Host.Outcome State Fault Refusal :=
  .next (s.unary .inc .eq r)

/-- INCG (R311, R309). -/
def execIncg (r : Reg) (s : State) : Host.Outcome State Fault Refusal :=
  .next (s.unary .inc .gt r)

/-- INCGE (R311, R309). -/
def execIncge (r : Reg) (s : State) : Host.Outcome State Fault Refusal :=
  .next (s.unary .inc .ge r)

/-- INCL (R311, R309). -/
def execIncl (r : Reg) (s : State) : Host.Outcome State Fault Refusal :=
  .next (s.unary .inc .lt r)

/-- INCLE (R311, R309). -/
def execIncle (r : Reg) (s : State) : Host.Outcome State Fault Refusal :=
  .next (s.unary .inc .le r)

/-- INCNE (R311, R309). -/
def execIncne (r : Reg) (s : State) : Host.Outcome State Fault Refusal :=
  .next (s.unary .inc .ne r)

/-- INCA (R311, R309). -/
def execInca (r : Reg) (s : State) : Host.Outcome State Fault Refusal :=
  .next (s.unary .inc .always r)

/-- COM (R312, R309). -/
def execCom (r : Reg) (s : State) : Host.Outcome State Fault Refusal :=
  .next (s.unary .com .never r)

/-- COME (R312, R309). -/
def execCome (r : Reg) (s : State) : Host.Outcome State Fault Refusal :=
  .next (s.unary .com .eq r)

/-- COMG (R312, R309). -/
def execComg (r : Reg) (s : State) : Host.Outcome State Fault Refusal :=
  .next (s.unary .com .gt r)

/-- COMGE (R312, R309). -/
def execComge (r : Reg) (s : State) : Host.Outcome State Fault Refusal :=
  .next (s.unary .com .ge r)

/-- COML (R312, R309). -/
def execComl (r : Reg) (s : State) : Host.Outcome State Fault Refusal :=
  .next (s.unary .com .lt r)

/-- COMLE (R312, R309). -/
def execComle (r : Reg) (s : State) : Host.Outcome State Fault Refusal :=
  .next (s.unary .com .le r)

/-- COMNE (R312, R309). -/
def execComne (r : Reg) (s : State) : Host.Outcome State Fault Refusal :=
  .next (s.unary .com .ne r)

/-- COMA (R312, R309). -/
def execComa (r : Reg) (s : State) : Host.Outcome State Fault Refusal :=
  .next (s.unary .com .always r)

/-- NEG (R313, R309). -/
def execNeg (r : Reg) (s : State) : Host.Outcome State Fault Refusal :=
  .next (s.unary .neg .never r)

/-- NEGE (R313, R309). -/
def execNege (r : Reg) (s : State) : Host.Outcome State Fault Refusal :=
  .next (s.unary .neg .eq r)

/-- NEGG (R313, R309). -/
def execNegg (r : Reg) (s : State) : Host.Outcome State Fault Refusal :=
  .next (s.unary .neg .gt r)

/-- NEGGE (R313, R309). -/
def execNegge (r : Reg) (s : State) : Host.Outcome State Fault Refusal :=
  .next (s.unary .neg .ge r)

/-- NEGL (R313, R309). -/
def execNegl (r : Reg) (s : State) : Host.Outcome State Fault Refusal :=
  .next (s.unary .neg .lt r)

/-- NEGLE (R313, R309). -/
def execNegle (r : Reg) (s : State) : Host.Outcome State Fault Refusal :=
  .next (s.unary .neg .le r)

/-- NEGNE (R313, R309). -/
def execNegne (r : Reg) (s : State) : Host.Outcome State Fault Refusal :=
  .next (s.unary .neg .ne r)

/-- NEGA (R313, R309). -/
def execNega (r : Reg) (s : State) : Host.Outcome State Fault Refusal :=
  .next (s.unary .neg .always r)

/-- TST (R314, R309). -/
def execTst (r : Reg) (s : State) : Host.Outcome State Fault Refusal :=
  .next (s.unary .tst .never r)

/-- TSTE (R314, R309). -/
def execTste (r : Reg) (s : State) : Host.Outcome State Fault Refusal :=
  .next (s.unary .tst .eq r)

/-- TSTG (R314, R309). -/
def execTstg (r : Reg) (s : State) : Host.Outcome State Fault Refusal :=
  .next (s.unary .tst .gt r)

/-- TSTGE (R314, R309). -/
def execTstge (r : Reg) (s : State) : Host.Outcome State Fault Refusal :=
  .next (s.unary .tst .ge r)

/-- TSTL (R314, R309). -/
def execTstl (r : Reg) (s : State) : Host.Outcome State Fault Refusal :=
  .next (s.unary .tst .lt r)

/-- TSTLE (R314, R309). -/
def execTstle (r : Reg) (s : State) : Host.Outcome State Fault Refusal :=
  .next (s.unary .tst .le r)

/-- TSTNE (R314, R309). -/
def execTstne (r : Reg) (s : State) : Host.Outcome State Fault Refusal :=
  .next (s.unary .tst .ne r)

/-- TSTA (R314, R309). -/
def execTsta (r : Reg) (s : State) : Host.Outcome State Fault Refusal :=
  .next (s.unary .tst .always r)

/-- ZR (R315, R309). -/
def execZr (r : Reg) (s : State) : Host.Outcome State Fault Refusal :=
  .next (s.unary .zr .never r)

/-- ZRE (R315, R309). -/
def execZre (r : Reg) (s : State) : Host.Outcome State Fault Refusal :=
  .next (s.unary .zr .eq r)

/-- ZRG (R315, R309). -/
def execZrg (r : Reg) (s : State) : Host.Outcome State Fault Refusal :=
  .next (s.unary .zr .gt r)

/-- ZRGE (R315, R309). -/
def execZrge (r : Reg) (s : State) : Host.Outcome State Fault Refusal :=
  .next (s.unary .zr .ge r)

/-- ZRL (R315, R309). -/
def execZrl (r : Reg) (s : State) : Host.Outcome State Fault Refusal :=
  .next (s.unary .zr .lt r)

/-- ZRLE (R315, R309). -/
def execZrle (r : Reg) (s : State) : Host.Outcome State Fault Refusal :=
  .next (s.unary .zr .le r)

/-- ZRNE (R315, R309). -/
def execZrne (r : Reg) (s : State) : Host.Outcome State Fault Refusal :=
  .next (s.unary .zr .ne r)

/-- ZRA (R315, R309). -/
def execZra (r : Reg) (s : State) : Host.Outcome State Fault Refusal :=
  .next (s.unary .zr .always r)

/-- ABV (R316, R309). -/
def execAbv (r : Reg) (s : State) : Host.Outcome State Fault Refusal :=
  .next (s.unary .abv .never r)

/-- ABVE (R316, R309). -/
def execAbve (r : Reg) (s : State) : Host.Outcome State Fault Refusal :=
  .next (s.unary .abv .eq r)

/-- ABVG (R316, R309). -/
def execAbvg (r : Reg) (s : State) : Host.Outcome State Fault Refusal :=
  .next (s.unary .abv .gt r)

/-- ABVGE (R316, R309). -/
def execAbvge (r : Reg) (s : State) : Host.Outcome State Fault Refusal :=
  .next (s.unary .abv .ge r)

/-- ABVL (R316, R309). -/
def execAbvl (r : Reg) (s : State) : Host.Outcome State Fault Refusal :=
  .next (s.unary .abv .lt r)

/-- ABVLE (R316, R309). -/
def execAbvle (r : Reg) (s : State) : Host.Outcome State Fault Refusal :=
  .next (s.unary .abv .le r)

/-- ABVNE (R316, R309). -/
def execAbvne (r : Reg) (s : State) : Host.Outcome State Fault Refusal :=
  .next (s.unary .abv .ne r)

/-- ABVA (R316, R309). -/
def execAbva (r : Reg) (s : State) : Host.Outcome State Fault Refusal :=
  .next (s.unary .abv .always r)

/-- SLO (R330, R309). -/
def execSlo (r : Reg) (s : State) : Host.Outcome State Fault Refusal :=
  .next (s.unary .slo .never r)

/-- SLOE (R330, R309). -/
def execSloe (r : Reg) (s : State) : Host.Outcome State Fault Refusal :=
  .next (s.unary .slo .eq r)

/-- SLOG (R330, R309). -/
def execSlog (r : Reg) (s : State) : Host.Outcome State Fault Refusal :=
  .next (s.unary .slo .gt r)

/-- SLOGE (R330, R309). -/
def execSloge (r : Reg) (s : State) : Host.Outcome State Fault Refusal :=
  .next (s.unary .slo .ge r)

/-- SLOL (R330, R309). -/
def execSlol (r : Reg) (s : State) : Host.Outcome State Fault Refusal :=
  .next (s.unary .slo .lt r)

/-- SLOLE (R330, R309). -/
def execSlole (r : Reg) (s : State) : Host.Outcome State Fault Refusal :=
  .next (s.unary .slo .le r)

/-- SLONE (R330, R309). -/
def execSlone (r : Reg) (s : State) : Host.Outcome State Fault Refusal :=
  .next (s.unary .slo .ne r)

/-- SLOA (R330, R309). -/
def execSloa (r : Reg) (s : State) : Host.Outcome State Fault Refusal :=
  .next (s.unary .slo .always r)

/-- NOP (R314: TST 0 without a suffix). -/
def execNop (s : State) : Host.Outcome State Fault Refusal :=
  .next s

end Sys2Proof.Machine
end

