-- ==== Sys2Proof/Machine/Dispatch.lean ====
section
/-!
DEFINITION. The meaning of every instruction: one arm per constructor of Instr.
-/

namespace Sys2Proof.Machine

def exec (i : Instr) (s : State) : Host.Outcome State Fault Refusal :=
  match i with
  | .lo ind r addr => Sys2Proof.Machine.execLo ind r addr s
  | .st ind r addr => Sys2Proof.Machine.execSt ind r addr s
  | .j ind x addr => Sys2Proof.Machine.execJ ind x addr s
  | .pushj ind x addr => Sys2Proof.Machine.execPushj ind x addr s
  | .xeq ind x addr => Sys2Proof.Machine.execXeq ind x addr s
  | .add r1 r2 => Sys2Proof.Machine.execAdd r1 r2 s
  | .addnc r1 r2 => Sys2Proof.Machine.execAddnc r1 r2 s
  | .sub r1 r2 => Sys2Proof.Machine.execSub r1 r2 s
  | .subnb r1 r2 => Sys2Proof.Machine.execSubnb r1 r2 s
  | .rlo r1 r2 => Sys2Proof.Machine.execRlo r1 r2 s
  | .rloz r1 r2 => Sys2Proof.Machine.execRloz r1 r2 s
  | .xor r1 r2 => Sys2Proof.Machine.execXor r1 r2 s
  | .xorz r1 r2 => Sys2Proof.Machine.execXorz r1 r2 s
  | .and r1 r2 => Sys2Proof.Machine.execAnd r1 r2 s
  | .andz r1 r2 => Sys2Proof.Machine.execAndz r1 r2 s
  | .or r1 r2 => Sys2Proof.Machine.execOr r1 r2 s
  | .orz r1 r2 => Sys2Proof.Machine.execOrz r1 r2 s
  | .xornz r1 r2 => Sys2Proof.Machine.execXornz r1 r2 s
  | .andnz r1 r2 => Sys2Proof.Machine.execAndnz r1 r2 s
  | .addi r n => Sys2Proof.Machine.execAddi r n s
  | .addinc r n => Sys2Proof.Machine.execAddinc r n s
  | .subi r n => Sys2Proof.Machine.execSubi r n s
  | .subinb r n => Sys2Proof.Machine.execSubinb r n s
  | .ilo r n => Sys2Proof.Machine.execIlo r n s
  | .iloz r n => Sys2Proof.Machine.execIloz r n s
  | .ilom r n => Sys2Proof.Machine.execIlom r n s
  | .ilomz r n => Sys2Proof.Machine.execIlomz r n s
  | .cshr r b => Sys2Proof.Machine.execCshr r b s
  | .cshl r b => Sys2Proof.Machine.execCshl r b s
  | .lshr r b => Sys2Proof.Machine.execLshr r b s
  | .lshl r b => Sys2Proof.Machine.execLshl r b s
  | .ashr r b => Sys2Proof.Machine.execAshr r b s
  | .ashrd r b => Sys2Proof.Machine.execAshrd r b s
  | .lshrd r b => Sys2Proof.Machine.execLshrd r b s
  | .lshld r b => Sys2Proof.Machine.execLshld r b s
  | .sob r b => Sys2Proof.Machine.execSob r b s
  | .szb r b => Sys2Proof.Machine.execSzb r b s
  | .clb r b => Sys2Proof.Machine.execClb r b s
  | .setb r b => Sys2Proof.Machine.execSetb r b s
  | .sobcl r b => Sys2Proof.Machine.execSobcl r b s
  | .szbcl r b => Sys2Proof.Machine.execSzbcl r b s
  | .sobset r b => Sys2Proof.Machine.execSobset r b s
  | .szbset r b => Sys2Proof.Machine.execSzbset r b s
  | .dec r => Sys2Proof.Machine.execDec r s
  | .dece r => Sys2Proof.Machine.execDece r s
  | .decl r => Sys2Proof.Machine.execDecl r s
  | .decle r => Sys2Proof.Machine.execDecle r s
  | .decg r => Sys2Proof.Machine.execDecg r s
  | .decge r => Sys2Proof.Machine.execDecge r s
  | .decne r => Sys2Proof.Machine.execDecne r s
  | .deca r => Sys2Proof.Machine.execDeca r s
  | .inc r => Sys2Proof.Machine.execInc r s
  | .ince r => Sys2Proof.Machine.execInce r s
  | .incl r => Sys2Proof.Machine.execIncl r s
  | .incle r => Sys2Proof.Machine.execIncle r s
  | .incg r => Sys2Proof.Machine.execIncg r s
  | .incge r => Sys2Proof.Machine.execIncge r s
  | .incne r => Sys2Proof.Machine.execIncne r s
  | .inca r => Sys2Proof.Machine.execInca r s
  | .com r => Sys2Proof.Machine.execCom r s
  | .come r => Sys2Proof.Machine.execCome r s
  | .coml r => Sys2Proof.Machine.execComl r s
  | .comle r => Sys2Proof.Machine.execComle r s
  | .comg r => Sys2Proof.Machine.execComg r s
  | .comge r => Sys2Proof.Machine.execComge r s
  | .comne r => Sys2Proof.Machine.execComne r s
  | .coma r => Sys2Proof.Machine.execComa r s
  | .neg r => Sys2Proof.Machine.execNeg r s
  | .nege r => Sys2Proof.Machine.execNege r s
  | .negl r => Sys2Proof.Machine.execNegl r s
  | .negle r => Sys2Proof.Machine.execNegle r s
  | .negg r => Sys2Proof.Machine.execNegg r s
  | .negge r => Sys2Proof.Machine.execNegge r s
  | .negne r => Sys2Proof.Machine.execNegne r s
  | .nega r => Sys2Proof.Machine.execNega r s
  | .tst r => Sys2Proof.Machine.execTst r s
  | .tste r => Sys2Proof.Machine.execTste r s
  | .tstl r => Sys2Proof.Machine.execTstl r s
  | .tstle r => Sys2Proof.Machine.execTstle r s
  | .tstg r => Sys2Proof.Machine.execTstg r s
  | .tstge r => Sys2Proof.Machine.execTstge r s
  | .tstne r => Sys2Proof.Machine.execTstne r s
  | .tsta r => Sys2Proof.Machine.execTsta r s
  | .zr r => Sys2Proof.Machine.execZr r s
  | .zre r => Sys2Proof.Machine.execZre r s
  | .zrl r => Sys2Proof.Machine.execZrl r s
  | .zrle r => Sys2Proof.Machine.execZrle r s
  | .zrg r => Sys2Proof.Machine.execZrg r s
  | .zrge r => Sys2Proof.Machine.execZrge r s
  | .zrne r => Sys2Proof.Machine.execZrne r s
  | .zra r => Sys2Proof.Machine.execZra r s
  | .abv r => Sys2Proof.Machine.execAbv r s
  | .abve r => Sys2Proof.Machine.execAbve r s
  | .abvl r => Sys2Proof.Machine.execAbvl r s
  | .abvle r => Sys2Proof.Machine.execAbvle r s
  | .abvg r => Sys2Proof.Machine.execAbvg r s
  | .abvge r => Sys2Proof.Machine.execAbvge r s
  | .abvne r => Sys2Proof.Machine.execAbvne r s
  | .abva r => Sys2Proof.Machine.execAbva r s
  | .slo r => Sys2Proof.Machine.execSlo r s
  | .sloe r => Sys2Proof.Machine.execSloe r s
  | .slol r => Sys2Proof.Machine.execSlol r s
  | .slole r => Sys2Proof.Machine.execSlole r s
  | .slog r => Sys2Proof.Machine.execSlog r s
  | .sloge r => Sys2Proof.Machine.execSloge r s
  | .slone r => Sys2Proof.Machine.execSlone r s
  | .sloa r => Sys2Proof.Machine.execSloa r s
  | .rex r => Sys2Proof.Machine.execRex r s
  | .mr r b => Sys2Proof.Machine.execMr r b s
  | .ml r b => Sys2Proof.Machine.execMl r b s
  | .ce r1 r2 => Sys2Proof.Machine.execCe r1 r2 s
  | .cne r1 r2 => Sys2Proof.Machine.execCne r1 r2 s
  | .cei r n => Sys2Proof.Machine.execCei r n s
  | .cnei r n => Sys2Proof.Machine.execCnei r n s
  | .cemi r n => Sys2Proof.Machine.execCemi r n s
  | .cnemi r n => Sys2Proof.Machine.execCnemi r n s
  | .push r1 r2 => Sys2Proof.Machine.execPush r1 r2 s
  | .pop r1 r2 => Sys2Proof.Machine.execPop r1 r2 s
  | .ipush r1 r2 => Sys2Proof.Machine.execIpush r1 r2 s
  | .ipop r1 r2 => Sys2Proof.Machine.execIpop r1 r2 s
  | .pushi r1 r2 => Sys2Proof.Machine.execPushi r1 r2 s
  | .popi r1 r2 => Sys2Proof.Machine.execPopi r1 r2 s
  | .dpush r1 r2 => Sys2Proof.Machine.execDpush r1 r2 s
  | .dpop r1 r2 => Sys2Proof.Machine.execDpop r1 r2 s
  | .pushd r1 r2 => Sys2Proof.Machine.execPushd r1 r2 s
  | .popd r1 r2 => Sys2Proof.Machine.execPopd r1 r2 s
  | .regj r n => Sys2Proof.Machine.execRegj r n s
  | .regpj r n => Sys2Proof.Machine.execRegpj r n s
  | .regjs r n => Sys2Proof.Machine.execRegjs r n s
  | .iot r dev => Sys2Proof.Machine.execIot r dev s
  | .locla da => Sys2Proof.Machine.execLocla da s
  | .loclr da => Sys2Proof.Machine.execLoclr da s
  | .loclsa da => Sys2Proof.Machine.execLoclsa da s
  | .loclsr da => Sys2Proof.Machine.execLoclsr da s
  | .lomma da => Sys2Proof.Machine.execLomma da s
  | .lommr da => Sys2Proof.Machine.execLommr da s
  | .lommp da => Sys2Proof.Machine.execLommp da s
  | .lomdr => Sys2Proof.Machine.execLomdr s
  | .stcl da => Sys2Proof.Machine.execStcl da s
  | .stmm da => Sys2Proof.Machine.execStmm da s
  | .nomm => Sys2Proof.Machine.execNomm s
  | .popmm da => Sys2Proof.Machine.execPopmm da s
  | .stmdr => Sys2Proof.Machine.execStmdr s
  | .rtcla da => Sys2Proof.Machine.execRtcla da s
  | .rtclr da => Sys2Proof.Machine.execRtclr da s
  | .rtclsa da => Sys2Proof.Machine.execRtclsa da s
  | .rtclsr da => Sys2Proof.Machine.execRtclsr da s
  | .rtmm da => Sys2Proof.Machine.execRtmm da s
  | .rtmms da => Sys2Proof.Machine.execRtmms da s
  | .rtmdr => Sys2Proof.Machine.execRtmdr s
  | .skcl da => Sys2Proof.Machine.execSkcl da s
  | .skmm da => Sys2Proof.Machine.execSkmm da s
  | .skmms da => Sys2Proof.Machine.execSkmms da s
  | .pushmm da => Sys2Proof.Machine.execPushmm da s
  | .skmdr => Sys2Proof.Machine.execSkmdr s
  | .td f1 f2 => Sys2Proof.Machine.execTd f1 f2 s
  | .tdr f1 f2 => Sys2Proof.Machine.execTdr f1 f2 s
  | .tdi f1 f2 => Sys2Proof.Machine.execTdi f1 f2 s
  | .tdir f1 f2 => Sys2Proof.Machine.execTdir f1 f2 s
  | .tdix f1 f2 => Sys2Proof.Machine.execTdix f1 f2 s
  | .tdixr f1 f2 => Sys2Proof.Machine.execTdixr f1 f2 s
  | .mmd f1 => Sys2Proof.Machine.execMmd f1 s
  | .mmdr f1 => Sys2Proof.Machine.execMmdr f1 s
  | .sd ind x man addr => Sys2Proof.Machine.execSd ind x man addr s
  | .rlocla da x => Sys2Proof.Machine.execRlocla da x s
  | .rloclr da x => Sys2Proof.Machine.execRloclr da x s
  | .rlomma da x => Sys2Proof.Machine.execRlomma da x s
  | .rlommr da x => Sys2Proof.Machine.execRlommr da x s
  | .rlommp da x => Sys2Proof.Machine.execRlommp da x s
  | .rstcl da x => Sys2Proof.Machine.execRstcl da x s
  | .rstmm da x => Sys2Proof.Machine.execRstmm da x s
  | .rlomdr x => Sys2Proof.Machine.execRlomdr x s
  | .rstmdr x => Sys2Proof.Machine.execRstmdr x s
  | .rd f1 f2 x => Sys2Proof.Machine.execRd f1 f2 x s
  | .nop => Sys2Proof.Machine.execNop s
  | .sleep => Sys2Proof.Machine.execSleep s
  | .popj => Sys2Proof.Machine.execPopj s
  | .popjof n => Sys2Proof.Machine.execPopjof n s
  | .ashl r b => Sys2Proof.Machine.execAshl r b s
  | .ashld r b => Sys2Proof.Machine.execAshld r b s

end Sys2Proof.Machine
end

