-- ==== Sys2Proof/Machine/Cycle.lean ====
section
/-!
DEFINITION. The instruction cycle, its interrupt tests, and the events of the other agents (R15, R103, R126, R236, R530, R602, R603, R610,
R635).
-/

namespace Sys2Proof.Machine

/-! ### Executing a word (R103, R603) -/

/-- The state an outcome leaves; a meaning never stops (R600), so the state before it serves for the other two. -/
def outcomeState (s : State) : Host.Outcome State Fault Refusal → State
  | .next t => t
  | .fault _ => s
  | .refused _ => s

/-- The word `w` is executed as an instruction: decoded and run; if it is none, Unimplemented Instruction is raised and nothing else
happens (R164, R603). -/
def State.runWord (s : State) (w : Word) : State :=
  match decodeWith s.params.stackBit22 w with
  | .ok i => outcomeState s (exec i s)
  | .error _ => s.raise .unimplemented

/-- An interrupt is taken, the high level first if it can be (R610). -/
def State.takeInterrupt (s : State) : State := s.enter s.highTaken fun w t => t.runWord w

/-- An interrupt of either level can be taken (R610). -/
def State.interruptTaken (s : State) : Bool := s.highTaken || s.lowTaken

/-! ### The instruction cycle (R103, R236, R610, R635) -/

/-- The fetch and execution of the word at PC, PC already advanced past it (R103); a condition of the fetch abandons the cycle
(R604). -/
def State.fetchAndRun (s : State) : State :=
  let t := s.setPc (s.pc + 1)
  match s.memRead s.pc with
  | .ok w => t.afterFetch.runWord w
  | .error c => t.raise c

/-- Test point (A) and the cycle (R610): asleep, only a high-level interrupt does anything; with a word left by XEQ or REX, that word
is executed with PC as it is, or discarded by an interrupt (R236); else PC is advanced and either an interrupt displaces
the word or the word is executed. DESIGN CHOICE: if the vector word cannot be read the displaced word is not executed all the
same, and PC stays past it (log 56). -/
def State.cycleA (s : State) : State :=
  if s.sleeping then (if s.highTaken then s.takeInterrupt else s)
  else
    match s.xw with
    | some w => if s.interruptTaken then s.takeInterrupt else ({ s with xw := none } : State).runWord w
    | none => if s.interruptTaken then (s.setPc (s.pc + 1)).takeInterrupt else s.fetchAndRun

/-- One action of another agent (R15). -/
def State.agent (s : State) (e : AgentEvent) : State :=
  match e with
  | .pipeline => s.pipelineStep
  | .tick c => s.tick c
  | .hostRead a => s.hostRead a
  | .hostWrite a v => s.hostWrite a v
  | .hostRegister v => s.writeHostRegister v
  | .switches v => { s with switches := v }

/-- Test point (B) (R602, R610): made at once when an instruction that raised a condition has ended, with PC as that instruction left it;
also after output of the pipeline that raised one between instructions (R604). What other agents did while the instruction ran is there
to be seen. A vector word that raises a condition itself is such an instruction again; each entry locks its level, so that `n` of 2 is
enough (log 53, 66). -/
def State.testB : Nat → State → State
  | 0, s => { s with raised := false }
  | n + 1, s =>
    if s.raised then
      let t : State := { s.popTurn State.agent with raised := false }
      if t.interruptTaken then State.testB n t.takeInterrupt else t
    else s

/-- One cycle of the Channel Control, with test point (B) at its end (R610). -/
def State.cycle (s : State) : State := State.testB 2 ({ s with raised := false } : State).cycleA

/-! ### Events (R15; log 52) -/

/-- One event, with what other agents do between its memory accesses. A condition that the pipeline raises between two cycles is tested at
once (R602, R604; log 66). -/
def State.event (s : State) (e : Input) : State :=
  match e with
  | .cycle turns => { ({ s with turns := turns } : State).cycle with turns := [] }
  | .agent turns .pipeline => { State.testB 2 ({ s with turns := turns } : State).pipelineStep with turns := [] }
  | .agent turns e => { ({ s with turns := turns } : State).agent e with turns := [] }

end Sys2Proof.Machine
end

