-- ==== Sys2Proof/Machine/Step.lean ====
section
/-!
DEFINITION. One step of the machine, and the placing of a word where the next step fetches.
-/

namespace Sys2Proof.Machine

/-- A step with no pending event: the pipeline settles; if its output raised a condition and an interrupt can be taken, it is taken with PC
as it stands, at test point (B) (R602, R604; log 66); else the Channel Control makes one cycle in which no other agent acts (log 17). -/
def State.idle (s : State) : State :=
  let t := State.settle { s with turns := [] }
  if t.raised && t.interruptTaken then State.testB 2 t else t.cycle

/-- One step: the first pending event, or the machine left to itself (log 52). Every step has a next state: nothing stops the machine
(R600). -/
def step (s : State) : Host.Outcome State Fault Refusal :=
  match s.inputs with
  | e :: rest => .next (({ s with inputs := rest } : State).event e)
  | [] => .next s.idle

/-- `s` with the instruction `w` where the next step fetches it: at the physical address of PC (log 2). What would keep the next
step from fetching there is cleared: pending events, queued pipeline commands, sleep, a word left by XEQ or REX, and the interrupt
masks if an interrupt would be taken. -/
def State.withFetchWord (s : State) (nbits w : Nat) : State :=
  let t : State := { s with inputs := [], queue := [], sleeping := false, xw := none }
  let u : State := if t.interruptTaken then { t with imr := 0 } else t
  match u.physical u.pc with
  | .ok p => { u with mem := Memory.writeWord u.mem p (BitVec.ofNat 24 (w % 2 ^ nbits)) }
  | .error _ => u

end Sys2Proof.Machine
end

