-- ==== Sys2Proof/Safety.lean ====
section
/-!
DEFINITION. The terms claims use: legal states, what an instruction leaves alone, and the rows of instruction forms that one statement
covers.
-/

namespace Sys2Proof.Machine

/-! ### Legal states -/

/-- What every step keeps: the memory is in canonical form, and bit 23 of the stored DIRECTIVE is 0, since SETTLED is the queue's
(R573). -/
structure State.Inv (s : State) : Prop where
  /-- The memory is in canonical form. -/
  memory : Memory.wf s.mem = true
  /-- SETTLED is not stored (R573). -/
  settledBit : bitAt s.dir 23 = false

/-- In user mode nothing privileged is pending: no enable, no mode change, no sleep (R383, R392, R393, R610). -/
def State.UserClean (s : State) : Prop :=
  s.mode = .user → s.pendUser = false ∧ s.pendIon = false ∧ s.sleeping = false

/-! ### What an instruction leaves alone -/

/-- From `s` to `t` nothing changes but the registers of `rs` and the PC: every other register, every byte of memory and every other
field stays. -/
def State.onlyRegs (s t : State) (rs : List Reg) : Prop :=
  (∀ k : Reg, k ∉ rs → t.reg k = s.reg k) ∧ (∀ a : Nat, Memory.readByte t.mem a = Memory.readByte s.mem a) ∧
    t = { s with regs := t.regs, pc := t.pc }

/-- As `onlyRegs`, but the Overflow condition, ICR bit 22, is set as well if `o` (R602, R607). -/
def State.onlyRegsOverflow (s t : State) (rs : List Reg) (o : Bool) : Prop :=
  (∀ k : Reg, k ∉ rs → t.reg k = s.reg k) ∧ (∀ a : Nat, Memory.readByte t.mem a = Memory.readByte s.mem a) ∧
    (∀ k : Nat, bitAt t.icr k = (bitAt s.icr k || (o && decide (k = 22)))) ∧ t.raised = (s.raised || o) ∧
    t = { s with regs := t.regs, pc := t.pc, icr := t.icr, raised := t.raised }

/-- From `s` to `t` the word at physical address `p` becomes `v`, and nothing else changes but the registers of `rs` and the PC. -/
def State.onlyStore (s t : State) (p : Nat) (v : Word) (rs : List Reg) : Prop :=
  Memory.readWord t.mem p = v ∧ (∀ a : Nat, a < 3 * p ∨ 3 * p + 3 ≤ a → Memory.readByte t.mem a = Memory.readByte s.mem a) ∧
    (∀ k : Reg, k ∉ rs → t.reg k = s.reg k) ∧ t = { s with regs := t.regs, pc := t.pc, mem := t.mem }

/-- An instruction abandoned by condition `c` (R602, R604): its ICR bit is set, for a protection violation PROT_FF too, and nothing
else changes. -/
def State.abandoned (s t : State) (c : Cond) : Prop :=
  (∀ k : Nat, bitAt t.icr k = (bitAt s.icr k || decide (k = c.bit))) ∧
    t.protFF = (s.protFF || decide (c = .memoryProtection)) ∧ t.raised = true ∧
    t = { s with icr := t.icr, protFF := t.protFF, raised := t.raised }

/-- The end of a jump (R237, R621, R622): a pending "set user mode" and a pending "enable interrupts" take effect. Under ION_CLEARS = both an
enable clears both locks. -/
def State.jumpEnds (s t : State) : Prop :=
  t.mode = (if s.pendUser then .user else s.mode) ∧ t.pendUser = false ∧ t.pendIon = false ∧
    (s.params.ionInnermost = false →
      t.lockLo = (s.lockLo && !s.pendIon) ∧ t.lockHi = (s.lockHi && !s.pendIon))

/-- The fields that the end of a jump may change. -/
def State.sameBesideJump (s t : State) : Prop :=
  t = { s with regs := t.regs, pc := t.pc, mem := t.mem, mode := t.mode, pendUser := t.pendUser, pendIon := t.pendIon,
               lockLo := t.lockLo, lockHi := t.lockHi }

/-- The registers and bits that only executive mode may change stay (R382, R620). -/
def State.samePrivileged (s t : State) : Prop :=
  t.mode = s.mode ∧ t.imr = s.imr ∧ t.protection = s.protection ∧ t.bar = s.bar ∧ t.sync = s.sync ∧ t.lights = s.lights ∧
    t.attention = s.attention ∧ t.sleeping = s.sleeping ∧ t.pendUser = s.pendUser ∧ t.pendIon = s.pendIon ∧
    t.lockLo = s.lockLo ∧ t.lockHi = s.lockHi ∧ t.hostInterrupt = s.hostInterrupt ∧ t.cd.permit = s.cd.permit ∧
    t.switches = s.switches ∧ t.params = s.params

/-- What the host's accesses between two accesses of an instruction may change: memory, and what the host has seen (R114, R126). -/
def State.onlyHostAccesses (s t : State) : Prop := t = { s with mem := t.mem, turns := t.turns, hostSeen := t.hostSeen }

/-! ### Interrupts -/

/-- From `u` to `t` an interrupt of a level is entered whose vector holds PUSHJ to `addr` (R610): the old TOS is stored at SP - 1, physical
address `p`, SP steps down, TOS takes PC; the mode is executive, the level's lock is set, the pending bits, the sleep and the word of XEQ or REX are
gone, the high level clears the host's bit, and all else stays. -/
def State.enteredFrom (u t : State) (high : Bool) (addr : BitVec 16) (p : Nat) : Prop :=
  t.pc.toNat = u.pc.toNat / 65536 * 65536 + addr.toNat ∧
    t.reg Reg.tos = u.pc ∧ t.reg Reg.sp = u.reg Reg.sp - 1 ∧ (∀ k, k ≠ Reg.sp → k ≠ Reg.tos → t.reg k = u.reg k) ∧
    Memory.readWord t.mem p = u.reg Reg.tos ∧
    (∀ a, a < 3 * p ∨ 3 * p + 3 ≤ a → Memory.readByte t.mem a = Memory.readByte u.mem a) ∧
    t.mode = .executive ∧ t.pendUser = false ∧ t.pendIon = false ∧ t.sleeping = false ∧ t.xw = none ∧
    t.lockHi = (u.lockHi || high) ∧ t.lockLo = (u.lockLo || !high) ∧ t.hostInterrupt = (u.hostInterrupt && !high) ∧
    t = { u with regs := t.regs, pc := t.pc, mem := t.mem, mode := t.mode, pendUser := t.pendUser, pendIon := t.pendIon,
                 sleeping := t.sleeping, xw := t.xw, lockHi := t.lockHi, lockLo := t.lockLo,
                 hostInterrupt := t.hostInterrupt, lastEntryHigh := t.lastEntryHigh }

/-- In `u` an interrupt of the level can be taken, the high level first, its vector holds PUSHJ to `addr`, and the word below SP, at physical
address `p`, exists (R610). -/
def State.canEnter (u : State) (high : Bool) (addr : BitVec 16) (p : Nat) : Prop :=
  (if high then u.highTaken = true else u.highTaken = false ∧ u.lowTaken = true) ∧
    State.memRead { u with mode := .executive } (if high then u.params.vecHi else u.params.vecLo) =
      .ok (encode (.pushj false false addr)) ∧
    p = (u.reg Reg.sp - 1).toNat ∧ p < u.params.memSize

/-! ### Transfers and drawing -/

/-- No repeat sequence is unfinished, and the counter asks for one register (R436, R438). -/
def State.oneRegister (s : State) : Prop := s.repeatBit = false ∧ bitAt (s.reg Reg.rc) 0 = false

/-- No repeat sequence is unfinished, and the counter asks for `n` iterations with a negative count (R37, R436, R499). -/
def State.counted (s : State) (n : Nat) : Prop :=
  s.repeatBit = false ∧ bitAt (s.reg Reg.rc) 0 = true ∧ (s.reg Reg.rc).toNat + n = 16777216

/-- The words of a point or a register, as memory holds them from `a` upward (R436, R437). -/
def State.wordsAt (s : State) (a : Word) (ws : List Word) : Prop :=
  ∀ (k : Nat) (h : k < ws.length), s.memRead (a + BitVec.ofNat 24 k) = .ok ws[k]

/-- The words `ws` are read one by one from `a` in steps of `d`, other agents acting between two of them, and leave the state `t` (R114, R126,
R436, R437). With no such action left `t` is `s` and the words are those memory holds. -/
def State.reads (s : State) (a d : Word) : List Word → State → Prop
  | [], t => t = s
  | [v], t => s.memRead a = .ok v ∧ t = s
  | v :: w :: ws, t => s.memRead a = .ok v ∧ s.gap.reads (a + d) d (w :: ws) t

/-- The words `ws` are written one by one from `a` upward, other agents acting between two of them, and leave the state `t` (R114, R126,
R436, R437). -/
def State.writes (s : State) (a : Word) : List Word → State → Prop
  | [], t => t = s
  | [v], t => s.memWrite a v = .ok t
  | v :: w :: ws, t => ∃ r : State, s.memWrite a v = .ok r ∧ r.gap.writes (a + 1) (w :: ws) t

/-- The words of a transfer, as consecutive registers from `c`, modulo 16, hold them (R425, D35). -/
def State.wordsIn (s : State) (c : Reg) (d : Tuple) : Prop :=
  d.is2d = s.twoD ∧ ∀ (k : Nat) (h : k < d.words.length), d.words[k] = s.reg (c + Fin.ofNat 16 k)

/-- Every register but those of `rs` stays, and so does every byte of memory. -/
def State.keepsBeside (s t : State) (rs : List Reg) : Prop :=
  (∀ k : Reg, k ∉ rs → t.reg k = s.reg k) ∧ ∀ a : Nat, Memory.readByte t.mem a = Memory.readByte s.mem a

/-- The words `ws` stand at the physical addresses `ps`, in order, and every other byte of memory is as before. -/
def wordsStored (before after : List Host.Cell) (ps : List Nat) (ws : List Word) : Prop :=
  (∀ (k : Nat) (h : k < ps.length) (h' : k < ws.length), Memory.readWord after ps[k] = ws[k]) ∧
    ∀ a : Nat, (∀ p ∈ ps, a < 3 * p ∨ 3 * p + 3 ≤ a) → Memory.readByte after a = Memory.readByte before a

/-- REPEAT STATUS after a finished load/unload: type 011, the last register address, Repeat 0 (R53, R438; log 32). -/
def State.transferRecorded (t : State) (a : DevAddr) : Prop :=
  fieldAt t.rsr 2 4 = 3 ∧ fieldAt t.rsr 19 22 = a.val ∧ t.repeatBit = false

/-- The instructions that load one register after another from memory, with the manner of load: from RP upward, or down from DSP (`down`), the
slide first moving the old row (R436, R437, R445 to R452, R465 to R472). LOMDR and RTMDR have the address 0. -/
def loadsFrom (i : Instr) (m : LoadManner) (a : DevAddr) (down slide : Bool) : Prop :=
  (((i, m) ∈ [(Instr.locla a, LoadManner.cla), (.loclr a, .clr), (.loclsa a, .clsa), (.loclsr a, .clsr), (.lomma a, .mm), (.lommr a, .mmr),
      (.lommp a, .mmp)] ∨ (i = .lomdr ∧ m = .mdr ∧ a = 0)) ∧ down = false ∧ slide = false) ∨
  (((i, m) ∈ [(Instr.rtcla a, LoadManner.cla), (.rtclr a, .clr), (.rtclsa a, .clsa), (.rtclsr a, .clsr), (.rtmm a, .mm)] ∨
      (i = .rtmdr ∧ m = .mdr ∧ a = 0)) ∧ down = true ∧ slide = false) ∨
  (i = .rtmms a ∧ m = .mm ∧ down = true ∧ slide = true)

/-- The instructions that store one register after another through RP or DSP, with the device, the slide moving a row of A after the store
(R436, R437, R453 to R455, R470, R473 to R475). STMDR and SKMDR have the address 0. -/
def storesThrough (i : Instr) (w : Device) (a : DevAddr) (p : Reg) (slide : Bool) : Prop :=
  (i, w, p, slide) ∈ [(Instr.stcl a, Device.clippingDivider, Reg.rp, false), (.stmm a, .matrix, Reg.rp, false),
      (.skcl a, .clippingDivider, Reg.dsp, false), (.skmm a, .matrix, Reg.dsp, false), (.skmms a, .matrix, Reg.dsp, true)] ∨
    ((i, w, p, slide) ∈ [(Instr.stmdr, Device.directive, Reg.rp, false), (.skmdr, .directive, Reg.dsp, false)] ∧ a = 0)

/-- No repeat sequence is unfinished, and the counter asks for `n` registers: the negative of the count, or one (R436, R438). -/
def State.asksFor (s : State) (n : Nat) : Prop := s.counted n ∨ (s.oneRegister ∧ n = 1)

/-- REPEAT STATUS in a drawing sequence: type 100, the two states and the Repeat bit (R53, R505). -/
def State.drawRecorded (t : State) (f1 : Fsm1) (f2 : Fsm2) (rep : Bool) : Prop :=
  fieldAt t.rsr 2 4 = 4 ∧ fieldAt t.rsr 5 7 = fsm1Code f1 ∧ fieldAt t.rsr 16 18 = fsm2Code f2 ∧ t.repeatBit = rep

/-- REPEAT STATUS records an unfinished load/unload sequence: type 011, store or load, sink or memory, device and manner, register address
(R53, R438). -/
def State.recordsTransfer (s : State) (u sink : Bool) (dm : Nat) (a : DevAddr) : Prop :=
  s.repeatBit = true ∧ fieldAt s.rsr 2 4 = 3 ∧ bitAt s.rsr 5 = u ∧ bitAt s.rsr 6 = sink ∧
    fieldAt s.rsr 7 7 * 8 + fieldAt s.rsr 16 18 = dm ∧ fieldAt s.rsr 19 22 = a.val

/-- `s` with the Repeat bit cleared: nothing is left to resume (R438, R505). -/
def State.nothingToResume (s : State) : State := { s with rsr := setBitAt s.rsr 23 false }

/-- `t`, which resumed what `s` records, is as `v`, which began afresh from `s` with the Repeat bit clear; if a condition stopped the instruction
without effect, REPEAT STATUS is in each as it was before. -/
def State.resumedAs (s t v : State) : Prop :=
  t = { v with rsr := t.rsr } ∧ (t.rsr = v.rsr ∨ (v.raised = true ∧ t.rsr = s.rsr ∧ v.rsr = s.nothingToResume.rsr))

/-- The point of a table draw of `s` cannot be read whole: a word raises `c`, in the state `v` that the other agents leave, and RP would be
`moved` words further (R500, R511). -/
def State.pointStops (s : State) (ind idx : Bool) (c : Cond) (v : State) (moved : Word) : Prop :=
  (s.memRead (s.reg Reg.rp) = .error c ∧ v = s ∧ moved = 0) ∨
  ∃ (r : State) (a : Word) (ds : List Word),
    (if ind then ∃ q, s.memRead (s.reg Reg.rp) = .ok q ∧ r = s.gap ∧ a = (if idx then q + s.reg Reg.ir else q) ∧ moved = 1
      else r = s ∧ a = s.reg Reg.rp ∧ moved = BitVec.ofNat 24 ds.length ∧ ds ≠ []) ∧
    ds.length < s.dim.nf.toNat ∧ ((ds = [] ∧ v = r) ∨ ∃ w : State, ds ≠ [] ∧ r.reads a 1 ds w ∧ v = w.gap) ∧
    v.memRead (a + BitVec.ofNat 24 ds.length) = .error c

/-- The drawing command the Channel Control sends, with its snapshot of DIR (R495, R531). -/
def State.command (s : State) (op : DrawOp) (form : Form) (data : Option Tuple) : Command :=
  { op := op, form := form, data := data, mma := bitAt s.dir 2, cda := bitAt s.dir 3, nov := bitAt s.dir 4, dim := s.dim }

/-- The words of the point formed from the words fetched: in the relative forms the sums with X, Y, Z, W; a fourth word is supplied to
three (R492, R495). -/
def State.pointWords (s : State) (form : Form) (ds : List Word) : List Word :=
  let p := ds.mapIdx fun k v => if form = .absolute then v else s.reg (Reg.x + Fin.ofNat 16 k) + v
  match p with
  | [a, b, c] => [a, b, c, if s.dim = .cd3d then c else 0x7FFFFF]
  | p => p

/-- The point becomes the Channel Control's current point if the form is not variable origin and the operation is set point, draw to or
dot (R495). -/
def movesCurrentPoint (op : DrawOp) (form : Form) : Bool :=
  decide (form ≠ .variableOrigin) && decide (op ≠ .drawFrom) && decide (op ≠ .box)

/-- After `k` operations in absolute form X, Y, Z and W hold the last of their points that became current, or what they held if none did
(R495). -/
def State.holdsLastPoint (s t : State) (k : Nat) (op : Nat → DrawOp) (p : Nat → Tuple) : Prop :=
  (∀ j < k, movesCurrentPoint (op j) .absolute = true → (∀ i < k, j < i → movesCurrentPoint (op i) .absolute = false) →
    ∀ l < 4, t.reg (Reg.x + Fin.ofNat 16 l) = (p j).words.getD l (s.reg (Reg.x + Fin.ofNat 16 l))) ∧
  ((∀ j < k, movesCurrentPoint (op j) .absolute = false) → ∀ l < 4, t.reg (Reg.x + Fin.ofNat 16 l) = s.reg (Reg.x + Fin.ofNat 16 l))

/-- `t` is `s` after a drawing operation sent the point `p`: X, Y, Z, W as R495 says, the command at the end of the queue, and under NOV
the pipeline settled, after an access of the host's (R114, R126, R430, R495). -/
def State.drawn (s t : State) (op : DrawOp) (form : Form) (p : Tuple) : Prop :=
  ∃ q : State, (∀ k : Reg, q.reg k =
      if movesCurrentPoint op form then
        (if 8 ≤ k.val then p.words.getD (k.val - 8) (s.reg k) else s.reg k)
      else s.reg k) ∧
    q = { s with regs := q.regs, queue := s.queue ++ [s.command op form (some p)] } ∧
    t = if bitAt s.dir 4 then q.gap.settle else q

/-! ### Clipping -/

/-- A quantity that goes linearly from `f.1` to `f.2` is not negative at `n / d` of the way, times `d`. -/
def notNegativeAt (n d : Int) (f : Int × Int) : Prop := 0 ≤ f.1 * (d - n) + f.2 * n

/-- Some point of the segment from (x0, y0) to (x1, y1) lies in the window (R553). -/
def meetsWindow (w : Quad) (x0 y0 x1 y1 : Int) : Prop :=
  ∃ n d : Int, 0 ≤ n ∧ n ≤ d ∧ 0 < d ∧
    w.c0.toInt * d ≤ x0 * (d - n) + x1 * n ∧ x0 * (d - n) + x1 * n ≤ w.c2.toInt * d ∧
    w.c1.toInt * d ≤ y0 * (d - n) + y1 * n ∧ y0 * (d - n) + y1 * n ≤ w.c3.toInt * d

/-- Some point of the segment lies in the pyramid of vision, |X| ≤ Zx and |Y| ≤ Zy, or in the one of -Zx and -Zy for `sign` = -1 (R554). -/
def meetsPyramid (sign : Int) (p q : CdPoint) : Prop :=
  ∃ n d : Int, 0 ≤ n ∧ n ≤ d ∧ 0 < d ∧
    |p.x * (d - n) + q.x * n| ≤ sign * (p.zx * (d - n) + q.zx * n) ∧
    |p.y * (d - n) + q.y * n| ≤ sign * (p.zy * (d - n) + q.zy * n)

/-- A coordinate that a drawing command brings to the Clipping Divider: the incoming one, or in graph mode the sum of SAVE and INSTANCE (R566). -/
def newCoordinate (self : Bool) (save inst v : Word) : Word := if self then save + inst else v

/-- The new point of a drawing command in the Clipping Divider as integers of 23 bits; Zx and Zy are 0 in 2D (R550, R552, R566). -/
def ClipDiv.newPoint (c : ClipDiv) : Tuple → CdPoint
  | .two x y => ⟨cdInt (newCoordinate c.cdir.selfX c.save.c0 c.inst.c0 x), cdInt (newCoordinate c.cdir.selfY c.save.c1 c.inst.c1 y), 0, 0⟩
  | .four x y zx zy => ⟨cdInt (newCoordinate c.cdir.selfX c.save.c0 c.inst.c0 x),
      cdInt (newCoordinate c.cdir.selfY c.save.c1 c.inst.c1 y), cdInt zx, cdInt zy⟩

/-- The SAVE point as integers of 23 bits (R550, R552). -/
def ClipDiv.oldPoint (c : ClipDiv) (twoD : Bool) : CdPoint :=
  ⟨cdInt c.save.c0, cdInt c.save.c1, if twoD then 0 else cdInt c.save.c2, if twoD then 0 else cdInt c.save.c3⟩

/-- A point lies in the window (2D), or in the pyramid of vision before the eye (3D) (R553, R554). -/
def ClipDiv.inView (c : ClipDiv) (twoD : Bool) (p : CdPoint) : Prop :=
  if twoD then c.wind.c0.toInt ≤ p.x ∧ p.x ≤ c.wind.c2.toInt ∧ c.wind.c1.toInt ≤ p.y ∧ p.y ≤ c.wind.c3.toInt
  else |p.x| ≤ p.zx ∧ |p.y| ≤ p.zy

/-- `Map2D` or `Map3D` of a point, exact quotients rounded down (R553, R554, R560). -/
def ClipDiv.mapped (c : ClipDiv) (twoD : Bool) (p : CdPoint) : Word × Word :=
  let w := c.wind
  let v := c.view
  if twoD then
    (BitVec.ofInt 24 (v.c0.toInt + Int.fdiv ((p.x - w.c0.toInt) * (v.c2.toInt - v.c0.toInt)) (w.c2.toInt - w.c0.toInt)),
     BitVec.ofInt 24 (v.c1.toInt + Int.fdiv ((p.y - w.c1.toInt) * (v.c3.toInt - v.c1.toInt)) (w.c3.toInt - w.c1.toInt)))
  else
    (BitVec.ofInt 24 (Int.fdiv ((v.c0.toInt + v.c2.toInt) * p.zx + p.x * (v.c2.toInt - v.c0.toInt)) (2 * p.zx)),
     BitVec.ofInt 24 (Int.fdiv ((v.c1.toInt + v.c3.toInt) * p.zy + p.y * (v.c3.toInt - v.c1.toInt)) (2 * p.zy)))

/-- The divisors of the map of a point are not zero (R553, R554, U8). -/
def ClipDiv.canMap (c : ClipDiv) (twoD : Bool) (p : CdPoint) : Prop :=
  if twoD then c.wind.c0.toInt ≠ c.wind.c2.toInt ∧ c.wind.c1.toInt ≠ c.wind.c3.toInt else p.zx ≠ 0 ∧ p.zy ≠ 0

/-- The words of a group: X, Y and in 3D Z, which is Zx (R555; log 46). -/
def groupOf (twoD : Bool) (x y : Word) (p : CdPoint) : List Word := [x, y] ++ (if twoD then [] else [BitVec.ofInt 24 p.zx])

/-- A command to the Line Generator with the present scopes; its intensity is INTENSITY, or Z under ZTOS (R555, R580 to R582). -/
def ClipDiv.command (c : ClipDiv) (kind : EmitKind) (x y : Word) (p : CdPoint) : Emit :=
  { kind := kind, x := x, y := y, z := if c.cdir.ztos then BitVec.ofInt 24 p.zx else c.intensity,
    select := c.select, permit := c.permit, dashed := c.cdir.dashed }

/-! ### Rows of forms -/

/-- The conditions of the suffixes of the unary instructions, in the order none, E, G, GE, L, LE, NE, A (R309). -/
def unaryConditions : List (Int → Bool) :=
  [fun _ => false, fun v => decide (v = 0), fun v => decide (0 < v), fun v => decide (0 ≤ v),
   fun v => decide (v < 0), fun v => decide (v ≤ 0), fun v => decide (v ≠ 0), fun _ => true]

/-- A row of unary instructions: the eight forms in the order of `unaryConditions`, the new contents as a number from the old contents and the
switches, and the exact signed result, of which one outside 24 bits is an overflow under OVERFLOW_UNARY (R273). -/
structure UnaryRow where
  forms : List (Reg → Instr)
  result : Nat → Nat → Nat
  exact : Int → Int

/-- The eight rows of unary instructions (R310 to R316, R330). -/
def unaryRows : List UnaryRow :=
  [{ forms := [.dec, .dece, .decg, .decge, .decl, .decle, .decne, .deca]
     result := fun v _ => (v + 16777215) % 16777216, exact := fun v => v - 1 },
   { forms := [.inc, .ince, .incg, .incge, .incl, .incle, .incne, .inca]
     result := fun v _ => (v + 1) % 16777216, exact := fun v => v + 1 },
   { forms := [.com, .come, .comg, .comge, .coml, .comle, .comne, .coma]
     result := fun v _ => 16777215 - v, exact := fun _ => 0 },
   { forms := [.neg, .nege, .negg, .negge, .negl, .negle, .negne, .nega]
     result := fun v _ => (16777216 - v) % 16777216, exact := fun v => -v },
   { forms := [.tst, .tste, .tstg, .tstge, .tstl, .tstle, .tstne, .tsta]
     result := fun v _ => v, exact := fun _ => 0 },
   { forms := [.zr, .zre, .zrg, .zrge, .zrl, .zrle, .zrne, .zra]
     result := fun _ _ => 0, exact := fun _ => 0 },
   { forms := [.abv, .abve, .abvg, .abvge, .abvl, .abvle, .abvne, .abva]
     result := fun v _ => if 8388608 ≤ v then (16777216 - v) % 16777216 else v, exact := fun v => if v < 0 then -v else v },
   { forms := [.slo, .sloe, .slog, .sloge, .slol, .slole, .slone, .sloa]
     result := fun _ sw => sw, exact := fun _ => 0 }]

/-- A signed value fits in 24 bits. -/
def fits24 (n : Int) : Bool := decide (-8388608 ≤ n ∧ n < 8388608)

/-- A signed value fits in 48 bits. -/
def fits48 (n : Int) : Bool := decide (-140737488355328 ≤ n ∧ n < 140737488355328)

/-- The push instructions, with the steps of the address register before and after the transfer (R250 to R254). -/
def pushRows : List ((Reg → Reg → Instr) × Word × Word) :=
  [(.push, 0, 0), (.ipush, 1, 0), (.pushi, 0, 1), (.dpush, 0xFFFFFF, 0), (.pushd, 0, 0xFFFFFF)]

/-- The pop instructions, with the steps of the address register before and after the transfer (R255 to R259). -/
def popRows : List ((Reg → Reg → Instr) × Word × Word) :=
  [(.pop, 0, 0), (.ipop, 1, 0), (.popi, 0, 1), (.dpop, 0xFFFFFF, 0), (.popd, 0, 0xFFFFFF)]

/-- The bit instructions: the value tested for and the value put in, where there is one (R361 to R368). -/
def bitRows : List ((Reg → BitCount → Instr) × Option Bool × Option Bool) :=
  [(.sob, some true, none), (.szb, some false, none), (.clb, none, some false), (.setb, none, some true),
   (.sobcl, some true, some false), (.szbcl, some false, some false), (.sobset, some true, some true),
   (.szbset, some false, some true)]

/-- The IOT codes that read a register, with the register (R385 to R405). Codes in hexadecimal. -/
def iotReads : List (Nat × (State → Word)) :=
  [(0x01, State.icr), (0x03, State.imr), (0x05, fun s => s.iodce.setWidth 24), (0x10, State.switches), (0x17, State.sync), (0x19, State.rsr),
   (0x23, State.protection), (0x25, State.bar)]

/-- The IOT codes that load a register, with the state after (R386 to R405). -/
def iotLoads : List (Nat × (State → Word → State)) :=
  [(0x02, fun s v => { s with icr := v }), (0x04, fun s v => { s with imr := v }), (0x06, fun s v => { s with iodce := v.setWidth 8 }),
   (0x11, fun s v => { s with lights := v }), (0x16, fun s v => { s with sync := v }), (0x18, fun s v => { s with rsr := v }),
   (0x22, fun s v => { s with protection := v }), (0x26, fun s v => { s with bar := v })]

/-- The 25 implemented device codes (R381). -/
def iotCodes : List Nat :=
  [0x01, 0x02, 0x03, 0x04, 0x05, 0x06, 0x07, 0x08, 0x09, 0x10, 0x11, 0x16, 0x17, 0x18, 0x19, 0x1A, 0x1B, 0x1E,
   0x20, 0x21, 0x22, 0x23, 0x24, 0x25, 0x26]

/-- The device codes a user may issue (R382). -/
def userCodes : List Nat := [0x18, 0x19, 0x1A, 0x1B, 0x1E]

/-- The mode may issue the code, and the code is implemented (R382, R383, R384). -/
def State.mayIssue (s : State) (d : Nat) : Prop := d ∈ iotCodes ∧ (s.mode = .executive ∨ d ∈ userCodes)

/-- The register loads, each with its manner of load (R456 to R460). -/
def registerLoads : List ((DevAddr → XSel → Instr) × LoadManner) :=
  [(.rlocla, .cla), (.rloclr, .clr), (.rlomma, .mm), (.rlommr, .mmr), (.rlommp, .mmp)]

/-- The table draws, with their indirect and index flags and whether they repeat (R501 to R507). -/
def tableDraws : List ((Fsm1 → Fsm2 → Instr) × Bool × Bool × Bool) :=
  [(.td, false, false, false), (.tdr, false, false, true), (.tdi, true, false, false), (.tdir, true, false, true),
   (.tdix, true, true, false), (.tdixr, true, true, true)]

/-- The load/unload instructions through RP and DSP: store or load, sink or memory, device and manner (R423, R438). -/
def pointerForms : List ((DevAddr → Instr) × Bool × Bool × Nat) :=
  [(.locla, false, false, 0), (.loclr, false, false, 1), (.loclsa, false, false, 2), (.loclsr, false, false, 3),
   (.lomma, false, false, 4), (.lommr, false, false, 5), (.lommp, false, false, 6),
   (.rtcla, false, true, 0), (.rtclr, false, true, 1), (.rtclsa, false, true, 2), (.rtclsr, false, true, 3),
   (.rtmm, false, true, 4), (.rtmms, false, true, 5),
   (.stcl, true, false, 0), (.stmm, true, false, 4), (.popmm, true, false, 6),
   (.skcl, true, true, 0), (.skmm, true, true, 4), (.skmms, true, true, 5), (.pushmm, true, true, 6)]

/-- The load/unload instructions without a register address (R461, R476). -/
def plainForms : List (Instr × Bool × Bool × Nat) :=
  [(.lomdr, false, false, 7), (.rtmdr, false, true, 7), (.stmdr, true, false, 7), (.skmdr, true, true, 7), (.nomm, true, false, 5)]

/-- The load/unload instructions through registers: store or load, device and manner (R423, R438). -/
def registerForms : List ((DevAddr → XSel → Instr) × Bool × Nat) :=
  [(.rlocla, false, 0), (.rloclr, false, 1), (.rlomma, false, 4), (.rlommr, false, 5), (.rlommp, false, 6),
   (fun _ x => .rlomdr x, false, 7), (.rstcl, true, 0), (.rstmm, true, 4), (fun _ x => .rstmdr x, true, 7)]

/-- A load/unload instruction through RP or DSP. -/
def isPointerForm (i : Instr) : Prop := (∃ f ∈ pointerForms, ∃ b, i = f.1 b) ∨ ∃ f ∈ plainForms, i = f.1

/-- A drawing instruction without registers of its own. -/
def isPointerDraw (i : Instr) : Prop := (∃ f ∈ tableDraws, ∃ g1 g2, i = f.1 g1 g2) ∨ ∃ g, i = .mmd g ∨ i = .mmdr g

/-- An instruction with the X field `x`. -/
def isRegisterForm (x : XSel) (i : Instr) : Prop := (∃ f ∈ registerForms, ∃ b, i = f.1 b x) ∨ ∃ g1 g2, i = .rd g1 g2 x

/-- The table draw that the bits of a load/unload word through RP select: bit 0 and bit 16 (R438, R505; log 32). -/
def tableDrawOf (u : Bool) (b : DevAddr) : Fsm1 → Fsm2 → Instr :=
  match u, decide (8 ≤ b.val) with
  | false, false => .td
  | false, true => .tdr
  | true, false => .tdi
  | true, true => .tdir

/-- Instructions that are jumps (R237). -/
def isJump : Instr → Bool
  | .j .. => true
  | .pushj .. => true
  | .regj .. => true
  | .regpj .. => true
  | .regjs .. => true
  | .popj => true
  | .popjof .. => true
  | _ => false

/-- Instructions that are IOTs (R384, R392). -/
def isIot : Instr → Bool
  | .iot .. => true
  | .sleep => true
  | _ => false

end Sys2Proof.Machine
end

