-- ==== Sys2Proof/Certificates/Slice0/Obligations.lean ====
section
/-!
DEFINITION. The statements for the provers, from the numbered rules of spec/. Where a statement rests on a choice of the model or of the
spec's own decision table, its docstring names the log entry.
-/

open Sys2Proof Sys2Proof.Machine

/-! ### Encoding and decoding -/

/-- R145, R151 to R159, R165: decoding the word of a well-formed instruction gives that instruction back, every operand with it, whatever
STACK_FN_BIT22_DONTCARE is (log 20). -/
def Obligations.DecodeReadsEncodeBack : Prop :=
  ∀ (i : Instr) (bit22 : Bool), i.WellFormed → decodeWith bit22 (encode i) = .ok i

/-- R160, R161, R165, with the model's choices D18 (log 19), by which every unused bit must be zero, and D19 (log 20), by which
STACK_FN_BIT22_DONTCARE is false: a word that decodes is the word of the instruction it decodes to, and that instruction is well formed, so
no two words decode to one instruction and no bit is ignored. The one exception is the DA field of RLOMDR, which has no effect (R461): the word is
that of the instruction but for this field, and with any other DA field it decodes to the same instruction (the model's choice, log 19). The
spec's source does not tell whether the hardware looks at those bits. -/
def Obligations.EncodeRebuildsDecodedWord : Prop :=
  ∀ (w : Word) (i : Instr), decode w = .ok i → i.WellFormed ∧
    ((∀ x : XSel, i ≠ .rlomdr x) → encode i = w) ∧
    (∀ x : XSel, i = .rlomdr x → encode i = setFieldAt w 16 19 0 ∧ ∀ d < 16, decode (setFieldAt w 16 19 d) = .ok i)

/-- R151 to R159: words written out from the encoding tables, one of each format; and a word of RLOMDR with a DA field, which R461 lets stand
there without effect (log 19). A sanity statement. -/
def Obligations.DecodesWordsOfTheTables : Prop :=
  decode 0b100100100000000010000000#24 = .ok (.st true 2 0x80) ∧
  decode 0b101101110000000011000000#24 = .ok (.pushj true true 0xC0) ∧
  decode 0b001011000000001000000000#24 = .ok (.sd false false .boxa 0x200) ∧
  decode 0b011000000000000000010000#24 = .ok (.add 0 1) ∧
  decode 0b111000010000000000111001#24 = .ok (.subinb 1 3) ∧
  decode 0b010100010000000101111011#24 = .ok (.setb 1 23) ∧
  decode 0b110101110000000000010000#24 = .ok (.dece 7) ∧
  decode 0b011100000000000011000110#24 = .ok (.pushi 0 12) ∧
  decode 0b111100100000000000010000#24 = .ok (.iot 2 0x10) ∧
  decode 0b110001100000000001000111#24 = .ok (.pushmm 4) ∧
  decode 0b010001100000000001000101#24 = .ok (.rlommp 4 .dx) ∧
  decode 0b110010100000000000101110#24 = .ok (.tdix .drawTo .aa) ∧
  decode 0b010000110000000000101101#24 = .ok (.rd .poly .aa .dx) ∧
  decode 0b010000110000000010101111#24 = .ok (.mmdr .poly) ∧
  decode 0b010001110000000001010001#24 = .ok (.rlomdr .sx)

/-- R160, D18 (log 19): every word of the undefined encodings, class by class in the bits of the manual, is refused. By the model's choice
RSTMDR with a device address is one of them, and RLOMDR with one is not (R461; log 19). -/
def Obligations.UndefinedEncodingsAreRefused : Prop :=
  ∀ w : Word,
    (-- (a) class 110 with an unassigned function code
     fieldAt w 1 3 = 6 ∧ (12 ≤ fieldAt w 20 23 ∨ (bitAt w 0 = false ∧ (fieldAt w 20 23 = 6 ∨ fieldAt w 20 23 = 7))) ∨
     -- (b) class 111, bit 0 = 0, function code 017, 2 or 3
     fieldAt w 0 3 = 7 ∧ (fieldAt w 20 23 = 15 ∨ fieldAt w 20 23 = 2 ∨ fieldAt w 20 23 = 3) ∨
     -- (c) class 101 with bit 0: REX with a bit of 16 to 19, the other codes below 7 with bit 16 unless SLO
     fieldAt w 0 3 = 13 ∧ (fieldAt w 20 23 = 7 ∧ fieldAt w 16 19 ≠ 0 ∨
       fieldAt w 20 23 < 7 ∧ bitAt w 16 = true ∧ fieldAt w 20 23 ≠ 4) ∨
     -- (e) class 100, load/unload: bit 4; stores and sinks with manner 1 to 3; retrieve 6; register forms 2, 3, and stores 5, 6
     fieldAt w 1 3 = 4 ∧ bitAt w 20 = false ∧ (bitAt w 4 = true ∨
       (bitAt w 0 = true ∧ (fieldAt w 4 7 = 1 ∨ fieldAt w 4 7 = 2 ∨ fieldAt w 4 7 = 3)) ∨
       (bitAt w 0 = false ∧ fieldAt w 4 7 = 6 ∧ fieldAt w 20 23 = 7) ∨
       (fieldAt w 20 23 < 6 ∧ (fieldAt w 4 7 = 2 ∨ fieldAt w 4 7 = 3)) ∨
       (fieldAt w 20 23 < 6 ∧ bitAt w 0 = true ∧ (fieldAt w 4 7 = 5 ∨ fieldAt w 4 7 = 6))) ∨
     -- (f) class 100, draws
     fieldAt w 1 3 = 4 ∧ 8 ≤ fieldAt w 20 23 ∧ fieldAt w 20 23 < 14 ∧ (bitAt w 0 = true ∨ bitAt w 4 = true ∨ bitAt w 16 = true) ∨
     fieldAt w 1 3 = 4 ∧ fieldAt w 20 23 = 15 ∧ (bitAt w 0 = true ∨ bitAt w 4 = true ∨ fieldAt w 17 19 ≠ 2) ∨
     fieldAt w 1 3 = 4 ∧ fieldAt w 20 23 = 14 ∧ bitAt w 4 = true ∧ bitAt w 0 = false ∨
     -- (g) unused bits: 8 to 15, in format RB 8 to 14, and the device address of the directive register's instructions
     fieldAt w 1 3 = 4 ∧ fieldAt w 8 15 ≠ 0 ∨ fieldAt w 0 3 = 5 ∧ fieldAt w 8 14 ≠ 0 ∨
     fieldAt w 0 3 = 13 ∧ (fieldAt w 20 23 < 8 ∨ fieldAt w 20 23 = 10 ∨ fieldAt w 20 23 = 11) ∧ fieldAt w 8 15 ≠ 0 ∨
     fieldAt w 0 3 = 13 ∧ (fieldAt w 20 23 = 8 ∨ fieldAt w 20 23 = 9) ∧ fieldAt w 8 14 ≠ 0 ∨
     fieldAt w 1 3 = 6 ∧ fieldAt w 20 23 < 8 ∧ fieldAt w 8 15 ≠ 0 ∨
     fieldAt w 0 3 = 7 ∧ fieldAt w 20 23 < 12 ∧ fieldAt w 8 15 ≠ 0 ∨
     fieldAt w 1 3 = 4 ∧ bitAt w 20 = false ∧ fieldAt w 4 7 = 7 ∧ (6 ≤ fieldAt w 20 23 ∨ bitAt w 0 = true) ∧ fieldAt w 16 19 ≠ 0 ∨
     fieldAt w 0 3 = 12 ∧ fieldAt w 20 23 = 6 ∧ fieldAt w 4 7 = 5 ∧ fieldAt w 16 19 ≠ 0) →
    ∃ e, decode w = .error e

/-! ### The step -/

/-- R103, R430, R610 and log 17, 52, 53: when no event of another agent is pending, a step first lets the pipeline settle (state `u`) and then, unless
the machine sleeps, a word of XEQ or REX waits or an interrupt is taken, fetches the word at PC; if that word decodes to `i`, the step is
`exec` of `i` with PC advanced by one, and then test point (B), which does nothing unless `i` raised a condition. The same holds of a cycle
that comes as an event, with what the other agents do meanwhile (`ts`). -/
def Obligations.StepRunsDecodedInstruction : Prop :=
  (∀ (s u : State) (w : Word) (i : Instr), s.inputs = [] → u = { State.settle { s with turns := [] } with raised := false } →
    u.sleeping = false → u.xw = none → u.interruptTaken = false →
    u.memRead u.pc = .ok w → decodeWith u.params.stackBit22 w = .ok i →
    ∃ t, exec i { u with pc := u.pc + 1 } = .next t ∧ step s = .next (State.testB 2 t) ∧ (t.raised = false → step s = .next t)) ∧
  (∀ (s u : State) (ts : Turns) (rest : List Input) (w : Word) (i : Instr), s.inputs = .cycle ts :: rest →
    u = { s with inputs := rest, turns := ts, raised := false } →
    u.sleeping = false → u.xw = none → u.interruptTaken = false →
    u.memRead u.pc = .ok w → decodeWith u.params.stackBit22 w = .ok i →
    ∃ t, exec i (State.afterFetch { u with pc := u.pc + 1 }) = .next t ∧
      step s = .next { State.testB 2 t with turns := [] } ∧ (t.raised = false → step s = .next { t with turns := [] }))

/-- R160, R602 to R604, D18, D25 (log 19, 26, 53): a fetched word that is no instruction raises Unimplemented Instruction, ICR bit 17, and a
fetch that raises a memory condition raises that; PC is at LOC+1 and nothing else changes, and test point (B) follows at once. -/
def Obligations.CyclesWithoutAnInstructionRaise : Prop :=
  ∀ (s : State) (c : Cond), s.inputs = [] → s.turns = [] → s.queue = [] →
    s.sleeping = false → s.xw = none → s.interruptTaken = false →
    ((∃ w e, s.memRead s.pc = .ok w ∧ decodeWith s.params.stackBit22 w = .error e ∧ c = .unimplemented) ∨
      s.memRead s.pc = .error c) →
    ∃ t, State.abandoned { s with pc := s.pc + 1 } t c ∧ step s = .next (State.testB 2 t) ∧
      (State.interruptTaken { t with raised := false } = false → step s = .next { t with raised := false })

/-! ### Invariants and whole-machine rules -/

/-- Every step keeps the memory in canonical form and SETTLED out of the stored DIRECTIVE (log 3, R573); and no test point (B) is left over
from one step to the next (R602, R610; log 53). -/
def Obligations.EveryStepKeepsTheInvariant : Prop :=
  ∀ s t : State, s.Inv → step s = .next t → t.Inv ∧ (s.raised = false → t.raised = false)

/-- Every step keeps the user mode clean: no enable, mode change or sleep is pending in user mode (R382, R392, R393, R610, R620). -/
def Obligations.EveryStepKeepsUserModeClean : Prop :=
  ∀ s t : State, s.UserClean → step s = .next t → t.UserClean

/-- R671: ColdStart and RunAt, whatever holds of the items they leave open (`base`), are in executive mode, with nothing pending, no lock, no
condition and nothing in the pipeline's queue, SETTLED 1. ColdStart sleeps with the high-level mask set, so that the host's interrupt, and nothing
else, wakes it; RunAt is awake at its address with no mask, so that no interrupt is taken. Reset is RunAt at address 0 with empty memory and zeros
(the model's choice, log 1), and meets both invariants. -/
def Obligations.ResetIsRunAtAndLegal : Prop :=
  (∀ (base : State) (a vh vl : Word) (mem : List Host.Cell),
    (∀ s ∈ [base.coldStart mem vh vl, base.runAt a mem], s.mem = mem ∧ s.mode = .executive ∧ s.lockLo = false ∧ s.lockHi = false ∧
      s.pendUser = false ∧ s.pendIon = false ∧ s.protFF = false ∧ s.xw = none ∧ s.icr = 0 ∧ s.hostInterrupt = false ∧
      s.attention = false ∧ s.queue = [] ∧ bitAt s.dirRead 23 = true ∧ s.regs = base.regs ∧ s.cd = base.cd ∧ s.mm = base.mm) ∧
    (base.coldStart mem vh vl).sleeping = true ∧ (base.coldStart mem vh vl).pc = base.pc ∧
    (base.coldStart mem vh vl).params.vecHi = vh ∧ (base.coldStart mem vh vl).params.vecLo = vl ∧
    (base.coldStart mem vh vl).interruptTaken = false ∧
    (base.params.imrHiBit < 24 → State.highTaken { base.coldStart mem vh vl with hostInterrupt := true } = true) ∧
    (base.runAt a mem).sleeping = false ∧ (base.runAt a mem).pc = a ∧ (base.runAt a mem).imr = 0 ∧
    (base.runAt a mem).params = base.params ∧ (base.runAt a mem).interruptTaken = false) ∧
  State.reset = State.zero.runAt 0 [] ∧ State.reset.Inv ∧ State.reset.UserClean

/-- R382, R383, R563, R620: no instruction executed in user mode changes the mode, a privileged register, a lock, the lights, the host's
attention bit or the scope permits. -/
def Obligations.UserInstructionsKeepPrivilegedState : Prop :=
  ∀ (i : Instr) (s t : State), s.mode = .user → s.UserClean → exec i s = .next t → s.samePrivileged t

/-- R237, R620, D24 (log 25): an instruction that is neither a jump nor an IOT leaves, in either mode, the mode, the masks, the locks, the
bounds, the BAR, the clocks, the lights, IODCE and everything pending as they are. Which instructions are jumps is the model's list, D24
(log 25): the manual does not say which it means, and a skip, XEQ and REX are none. -/
def Obligations.OnlyJumpsAndIotsChangeControlState : Prop :=
  ∀ (i : Instr) (s t : State), isJump i = false → isIot i = false → exec i s = .next t →
    t.mode = s.mode ∧ t.imr = s.imr ∧ t.protection = s.protection ∧ t.bar = s.bar ∧ t.sync = s.sync ∧ t.lights = s.lights ∧
    t.iodce = s.iodce ∧ t.attention = s.attention ∧ t.sleeping = s.sleeping ∧ t.pendUser = s.pendUser ∧
    t.pendIon = s.pendIon ∧ t.lockLo = s.lockLo ∧ t.lockHi = s.lockHi ∧ t.hostInterrupt = s.hostInterrupt

/-- R605 (log 55): no instruction but an IOT of code 002, the load of the register, clears a bit of the INTERRUPT CONDITIONS register. -/
def Obligations.ConditionsStayUntilIot : Prop :=
  ∀ (i : Instr) (s t : State) (k : Nat),
    (∀ r dev, i = .iot r dev → deviceCode s.params.iotDevHighIgnored dev ≠ 2) →
    exec i s = .next t → bitAt s.icr k = true → bitAt t.icr k = true

/-! ### Memory accesses -/

/-- R104, R105, D4, D6 (log 6, 8): the effective address is the page of PC (already advanced) joined to
ADDR; with @ the word there, all of it; with % plus IR, modulo 2^24, after the indirection. -/
def Obligations.EffectiveAddressOfThePagedForms : Prop :=
  ∀ (s : State) (x : Bool) (addr : BitVec 16) (d : Word),
    d.toNat = s.pc.toNat / 65536 * 65536 + addr.toNat →
    (∃ e, s.ea false x addr = .ok e ∧
      e.toNat = (d.toNat + (if x then (s.reg Reg.ir).toNat else 0)) % 16777216) ∧
    (∀ q, s.memRead d = .ok q → ∃ e, s.ea true x addr = .ok e ∧
      e.toNat = (q.toNat + (if x then (s.reg Reg.ir).toNat else 0)) % 16777216) ∧
    (∀ c, s.memRead d = .error c → s.ea true x addr = .error c)

/-- R110, R111, R116, R120, R121, D3, D7, D13, D14 (log 9, 13, 14, 15): a read in executive mode takes the address as it stands; in user mode the
relocated address must lie in a 512-word page from the lower bound to the upper bound; then it must exist; then its parity
must be good; the first failure is the condition. A write that its translation lets through replaces one word, which
then reads back; every other byte stays. -/
def Obligations.MemoryAccessesCheckInOrder : Prop :=
  (∀ (s : State) (a p : Word), p = (if s.mode = .user then relocate s.params.relocation s.bar a else a) →
    s.memRead a =
      if s.mode = .user ∧ ¬ (fieldAt s.protection 16 23 ≤ p.toNat / 512 ∧ p.toNat / 512 ≤ fieldAt s.protection 8 15) then
        .error .memoryProtection
      else if s.params.memSize ≤ p.toNat then .error .nonexistentMemory
      else if p.toNat ∈ s.params.parityBad then .error .parity
      else .ok (Memory.readWord s.mem p.toNat)) ∧
  (∀ (s : State) (a v : Word) (p : Nat), s.Inv → s.physical a = .ok p →
    ∃ t, s.memWrite a v = .ok t ∧ s.onlyStore t p v [] ∧ t.pc = s.pc ∧ t.Inv)

/-! ### Loading and storing -/

/-- R200, R201, R114: LO loads the word at its effective address and changes nothing else; ST stores the register there, changes no register,
and leaves every other byte of memory. Between an indirect word and the operand the host may access memory (state `u`; log 16). -/
def Obligations.LoadAndStoreAtTheEffectiveAddress : Prop :=
  ∀ (s u : State) (i : Bool) (r : Reg) (addr : BitVec 16) (e : Word), s.ea i false addr = .ok e → u = s.afterEA i →
    (∀ v, u.memRead e = .ok v → ∃ t, exec (.lo i r addr) s = .next t ∧ t.reg r = v ∧ t.pc = s.pc ∧ u.onlyRegs t [r]) ∧
    (∀ p, s.Inv → u.physical e = .ok p →
      ∃ t, exec (.st i r addr) s = .next t ∧ t.pc = s.pc ∧ u.onlyStore t p (s.reg r) [])

/-- R202 to R205: RLO copies R2 into R1; RLOZ does and skips if the word is zero; ILO loads N, ILOM minus N in two's complement. No
condition is raised and nothing else changes; the words are those of the rules. -/
def Obligations.RegisterAndImmediateLoads : Prop :=
  ∀ (s : State) (r1 r2 : Reg) (n : BitVec 12),
    (∃ t, exec (.rlo r1 r2) s = .next t ∧ t.reg r1 = s.reg r2 ∧ t.pc = s.pc ∧ s.onlyRegs t [r1]) ∧
    (∃ t, exec (.rloz r1 r2) s = .next t ∧ t.reg r1 = s.reg r2 ∧
      t.pc = (if s.reg r2 = 0 then s.pc + 1 else s.pc) ∧ s.onlyRegs t [r1]) ∧
    (∃ t, exec (.ilo r1 n) s = .next t ∧ (t.reg r1).toNat = n.toNat ∧ t.pc = s.pc ∧ s.onlyRegs t [r1]) ∧
    (∃ t, exec (.ilom r1 n) s = .next t ∧ (t.reg r1).toInt = -(n.toNat : Int) ∧ t.pc = s.pc ∧ s.onlyRegs t [r1]) ∧
    decode (0b0110#4 ++ BitVec.ofNat 4 r1.val ++ 0#8 ++ BitVec.ofNat 4 r2.val ++ 0b0010#4) = .ok (.rlo r1 r2) ∧
    decode (0b1110#4 ++ BitVec.ofNat 4 r1.val ++ 0#8 ++ BitVec.ofNat 4 r2.val ++ 0b0010#4) = .ok (.rloz r1 r2) ∧
    decode (0b0110#4 ++ BitVec.ofNat 4 r1.val ++ n ++ 0b1010#4) = .ok (.ilo r1 n) ∧
    decode (0b0110#4 ++ BitVec.ofNat 4 r1.val ++ n ++ 0b1011#4) = .ok (.ilom r1 n)

/-- R206, R207 (derived there from RLOZ; N28): ILOZ and ILOMZ load as ILO and ILOM and skip if the word loaded is zero. -/
def Obligations.ImmediateLoadsThatSkip : Prop :=
  ∀ (s : State) (r : Reg) (n : BitVec 12),
    (∃ t, exec (.iloz r n) s = .next t ∧ (t.reg r).toNat = n.toNat ∧
      t.pc = (if n.toNat = 0 then s.pc + 1 else s.pc) ∧ s.onlyRegs t [r]) ∧
    (∃ t, exec (.ilomz r n) s = .next t ∧ (t.reg r).toInt = -(n.toNat : Int) ∧
      t.pc = (if n.toNat = 0 then s.pc + 1 else s.pc) ∧ s.onlyRegs t [r])

/-! ### Program control -/

/-- R222, R224, R621, R622: J goes to its effective address and REGJ to R + N modulo 2^24; no register and no memory change (but by the host after
an indirect word, state `u`). Both end pending enables and mode changes, which is the model's list of jumps, D24 (log 25). -/
def Obligations.JumpsGoToTheirTarget : Prop :=
  (∀ (s u : State) (i x : Bool) (addr : BitVec 16) (e : Word), s.ea i x addr = .ok e → u = s.afterEA i →
    ∃ t, exec (.j i x addr) s = .next t ∧ t.pc = e ∧ t.regs = s.regs ∧ t.mem = u.mem ∧ u.jumpEnds t ∧ u.sameBesideJump t) ∧
  (∀ (s : State) (r : Reg) (n : BitVec 12),
    ∃ t, exec (.regj r n) s = .next t ∧ t.pc.toNat = ((s.reg r).toNat + n.toNat) % 16777216 ∧ t.regs = s.regs ∧
      t.mem = s.mem ∧ s.jumpEnds t ∧ s.sameBesideJump t)

/-- R220, R223, R225: PUSHJ and REGPJ store the old TOS at SP - 1, step SP down, put PC (LOC+1) in TOS and jump; REGPJ reads its register
after the push, so REGPJ TOS,N goes to LOC+1+N and REGPJ SP,N uses the stepped SP. Nothing else changes in memory (but by the host after PUSHJ's
indirect word, state `u`) or the registers. Both end pending enables and mode changes, which is the model's list of jumps, D24 (log 25). -/
def Obligations.PushJumpsSaveTheReturnAddress : Prop :=
  ∀ (s : State) (p : Nat), s.Inv → s.physical (s.reg Reg.sp - 1) = .ok p →
    (∀ (u : State) (i x : Bool) (addr : BitVec 16) (e : Word), s.ea i x addr = .ok e → u = s.afterEA i →
      ∃ t, exec (.pushj i x addr) s = .next t ∧ t.pc = e ∧ t.reg Reg.sp = s.reg Reg.sp - 1 ∧ t.reg Reg.tos = s.pc ∧
        (∀ k, k ≠ Reg.sp → k ≠ Reg.tos → t.reg k = s.reg k) ∧ Memory.readWord t.mem p = s.reg Reg.tos ∧
        (∀ a, a < 3 * p ∨ 3 * p + 3 ≤ a → Memory.readByte t.mem a = Memory.readByte u.mem a) ∧
        u.jumpEnds t ∧ u.sameBesideJump t) ∧
    (∀ (r : Reg) (n : BitVec 12),
      ∃ t, exec (.regpj r n) s = .next t ∧
        t.pc = (if r = Reg.tos then s.pc else if r = Reg.sp then s.reg Reg.sp - 1 else s.reg r) + zext n ∧
        t.reg Reg.sp = s.reg Reg.sp - 1 ∧ t.reg Reg.tos = s.pc ∧
        (∀ k, k ≠ Reg.sp → k ≠ Reg.tos → t.reg k = s.reg k) ∧ Memory.readWord t.mem p = s.reg Reg.tos ∧
        (∀ a, a < 3 * p ∨ 3 * p + 3 ≤ a → Memory.readByte t.mem a = Memory.readByte s.mem a) ∧
        s.jumpEnds t ∧ s.sameBesideJump t)

/-- R221, R223, R226, R227, R228: REGJS, POPJ and POPJOF jump to R + N (R is TOS for the last two, read before the pop), load TOS from the word at SP
and step SP up; memory stays. They end pending enables and mode changes, which is the model's list of jumps, D24 (log 25). So after PUSHJ and
POPJ the machine is at the word after the PUSHJ with every register as before the call, if the stack word is good memory. -/
def Obligations.PopJumpsReturn : Prop :=
  (∀ (s : State) (v : Word), s.memRead (s.reg Reg.sp) = .ok v →
    (∀ (i : Instr) (target : Word),
      ((∃ r n, i = .regjs r n ∧ target = s.reg r + zext n) ∨ (i = .popj ∧ target = s.reg Reg.tos) ∨
        (∃ n, i = .popjof n ∧ target = s.reg Reg.tos + zext n)) →
      ∃ t, exec i s = .next t ∧ t.pc = target ∧ t.reg Reg.tos = v ∧ t.reg Reg.sp = s.reg Reg.sp + 1 ∧
        (∀ k, k ≠ Reg.sp → k ≠ Reg.tos → t.reg k = s.reg k) ∧
        (∀ a, Memory.readByte t.mem a = Memory.readByte s.mem a) ∧ s.jumpEnds t ∧ s.sameBesideJump t)) ∧
  (∀ (s : State) (i x : Bool) (addr : BitVec 16) (e : Word) (p : Nat), s.Inv → s.pendIon = false → s.pendUser = false →
    s.ea i x addr = .ok e → s.physical (s.reg Reg.sp - 1) = .ok p → p ∉ s.params.parityBad →
    ∃ t u, exec (.pushj i x addr) s = .next t ∧ exec .popj t = .next u ∧ u.pc = s.pc ∧ u.regs = s.regs)

/-- R230, R231, R236, D23 (log 24): XEQ and REX hold the word to be executed and change nothing else, PC included (the host may access memory
between XEQ's words: state `u` of the first clause); the next cycle executes the word held, with PC as it is and without a fetch, and holds it no
longer. -/
def Obligations.ExecuteHoldsTheWordForTheNextCycle : Prop :=
  (∀ (s u : State) (i x : Bool) (addr : BitVec 16) (e w : Word), s.ea i x addr = .ok e → u = s.afterEA i → u.memRead e = .ok w →
    exec (.xeq i x addr) s = .next { u with xw := some w }) ∧
  (∀ (s : State) (r : Reg), exec (.rex r) s = .next { s with xw := some (s.reg r) }) ∧
  (∀ (s u : State) (w : Word) (i : Instr), s.inputs = [] → u = { State.settle { s with turns := [] } with raised := false } →
    u.sleeping = false → u.xw = some w → u.interruptTaken = false →
    decodeWith u.params.stackBit22 w = .ok i →
    ∃ t, exec i { u with xw := none } = .next t ∧ step s = .next (State.testB 2 t) ∧ (t.raised = false → step s = .next t))

/-! ### Stack control -/

/-- R245 to R247, R250 to R259, D26 (log 27): each push steps R2 before or after the transfer and stores R1 at the address, with R1 = R2
the register as the first step left it. Each pop steps R2 before or after the transfer and loads R1 from the address;
with R1 = R2 a step after the load is made on the word loaded, a step before it is lost. Nothing else changes. -/
def Obligations.PushesAndPopsMoveAndStep : Prop :=
  (∀ f ∈ pushRows, ∀ (s : State) (r1 r2 : Reg) (p : Nat), s.Inv → s.physical (s.reg r2 + f.2.1) = .ok p →
    ∃ t, exec (f.1 r1 r2) s = .next t ∧ t.pc = s.pc ∧ t.reg r2 = s.reg r2 + f.2.1 + f.2.2 ∧
      s.onlyStore t p (if r1 = r2 then s.reg r2 + f.2.1 else s.reg r1) [r2]) ∧
  (∀ f ∈ popRows, ∀ (s : State) (r1 r2 : Reg) (v : Word), s.memRead (s.reg r2 + f.2.1) = .ok v →
    ∃ t, exec (f.1 r1 r2) s = .next t ∧ t.pc = s.pc ∧ t.reg r1 = (if r1 = r2 then v + f.2.2 else v) ∧
      (r1 ≠ r2 → t.reg r2 = s.reg r2 + f.2.1 + f.2.2) ∧ s.onlyRegs t [r1, r2])

/-! ### Arithmetic and logic -/

/-- R270, R272 to R281, D27 (log 28): ADD, ADDNC, ADDI and ADDINC deposit the sum modulo 2^24, SUB, SUBNB, SUBI and SUBINB the difference; ADDNC and
ADDINC skip on no carryout, SUBNB and SUBINB on no borrow; Overflow is set when the signed result does not fit in 24 bits; nothing else
changes. -/
def Obligations.ArithmeticDepositsSkipsAndOverflows : Prop :=
  ∀ (s : State) (r1 : Reg),
    (∀ f ∈ [(fun r2 (_ : BitVec 12) => Instr.add r1 r2, false, false), (fun r2 _ => .addnc r1 r2, false, true),
           (fun _ n => .addi r1 n, true, false), (fun _ n => .addinc r1 n, true, true)],
    ∀ (r2 : Reg) (n : BitVec 12) (b : Word), b = (if f.2.1 then zext n else s.reg r2) →
      ∃ t, exec (f.1 r2 n) s = .next t ∧ (t.reg r1).toNat = ((s.reg r1).toNat + b.toNat) % 16777216 ∧
        t.pc = (if f.2.2 ∧ (s.reg r1).toNat + b.toNat < 16777216 then s.pc + 1 else s.pc) ∧
        s.onlyRegsOverflow t [r1] (!fits24 ((s.reg r1).toInt + b.toInt))) ∧
    (∀ f ∈ [(fun r2 (_ : BitVec 12) => Instr.sub r1 r2, false, false), (fun r2 _ => .subnb r1 r2, false, true),
           (fun _ n => .subi r1 n, true, false), (fun _ n => .subinb r1 n, true, true)],
    ∀ (r2 : Reg) (n : BitVec 12) (b : Word), b = (if f.2.1 then zext n else s.reg r2) →
      ∃ t, exec (f.1 r2 n) s = .next t ∧ (t.reg r1).toNat = ((s.reg r1).toNat + 16777216 - b.toNat) % 16777216 ∧
        t.pc = (if f.2.2 ∧ b.toNat ≤ (s.reg r1).toNat then s.pc + 1 else s.pc) ∧
        s.onlyRegsOverflow t [r1] (!fits24 ((s.reg r1).toInt - b.toInt)))

/-- R271, R282 to R289: OR, XOR and AND deposit bit by bit by the truth tables; ORZ, XORZ and ANDZ do and skip if the result is zero; XORNZ and
ANDNZ only skip if it is zero. No condition is raised and nothing else changes. The word is class 110 with bit 0 for the skip form and
the function code of the rule. -/
def Obligations.LogicalOperationsBitByBit : Prop :=
  ∀ (s : State) (r1 r2 : Reg),
    ∀ f ∈ [(Instr.or, (fun a b => a || b), true, false, 5#4), (.orz, (fun a b => a || b), true, true, 5#4),
           (.xor, (fun a b => a != b), true, false, 3#4), (.xorz, (fun a b => a != b), true, true, 3#4),
           (.xornz, (fun a b => a != b), false, true, 6#4), (.and, (fun a b => a && b), true, false, 4#4),
           (.andz, (fun a b => a && b), true, true, 4#4), (.andnz, (fun a b => a && b), false, true, 7#4)],
      decode (BitVec.ofBool f.2.2.2.1 ++ 0b110#3 ++ BitVec.ofNat 4 r1.val ++ 0#8 ++ BitVec.ofNat 4 r2.val ++ f.2.2.2.2) = .ok (f.1 r1 r2) ∧
      ∃ t v, exec (f.1 r1 r2) s = .next t ∧ (∀ k < 24, bitAt v k = f.2.1 (bitAt (s.reg r1) k) (bitAt (s.reg r2) k)) ∧
        t.reg r1 = (if f.2.2.1 then v else s.reg r1) ∧
        t.pc = (if f.2.2.2.1 ∧ v = 0 then s.pc + 1 else s.pc) ∧ s.onlyRegs t [r1]

/-! ### Compare and unary -/

/-- R300 to R305: CE, CNE, CEI, CNEI, CEMI and CNEMI skip on equality or inequality with the register, N or minus N, and change nothing
else; the words are class 101 with bit 0 and the function codes of the rules. -/
def Obligations.ComparesSkip : Prop :=
  ∀ (s : State) (r r2 : Reg) (n : BitVec 12),
    ∀ f ∈ [(Instr.ce r r2, decide (s.reg r = s.reg r2), (0#8 ++ BitVec.ofNat 4 r2.val ++ 0b1010#4 : BitVec 16)),
           (.cne r r2, decide (s.reg r ≠ s.reg r2), (0#8 ++ BitVec.ofNat 4 r2.val ++ 0b1011#4 : BitVec 16)),
           (.cei r n, decide ((s.reg r).toNat = n.toNat), n ++ 0b1100#4),
           (.cnei r n, decide ((s.reg r).toNat ≠ n.toNat), n ++ 0b1101#4),
           (.cemi r n, decide ((s.reg r).toInt = -(n.toNat : Int)), n ++ 0b1110#4),
           (.cnemi r n, decide ((s.reg r).toInt ≠ -(n.toNat : Int)), n ++ 0b1111#4)],
      decode (0b1101#4 ++ BitVec.ofNat 4 r.val ++ f.2.2) = .ok f.1 ∧
        exec f.1 s = .next { s with pc := if f.2.1 then s.pc + 1 else s.pc }

/-- R309 to R316, R330, R273 (log 28): each of the 64 unary instructions puts its result in the register and skips if the new contents satisfy its
suffix as a signed number; Overflow only under OVERFLOW_UNARY; nothing else changes. NOP (R314) changes nothing at all. -/
def Obligations.UnaryInstructionsOperateThenTest : Prop :=
  (∀ row ∈ unaryRows, ∀ f ∈ row.forms.zip unaryConditions, ∀ (s : State) (r : Reg),
    ∃ t, exec (f.1 r) s = .next t ∧ (t.reg r).toNat = row.result (s.reg r).toNat s.switches.toNat ∧
      t.pc = (if f.2 (t.reg r).toInt then s.pc + 1 else s.pc) ∧
      s.onlyRegsOverflow t [r] (s.params.overflowUnary && !fits24 (row.exact (s.reg r).toInt))) ∧
  (∀ s : State, exec .nop s = .next s)

/-! ### Shifts, masks and bits -/

/-- R344, R345, R350, R351: the right shifts and the rotations of one register, by their formulas; no condition is raised and nothing else
changes. The words are class 101 with bit 0 clear, the count in bits 15 to 19 and the function codes of the rules. Counts of 24 to 31, which the
manual excludes, follow the formulas too: the model's choice D28 (log 29). -/
def Obligations.RightShiftsAndRotations : Prop :=
  ∀ (s : State) (r : Reg) (b : BitCount) (v k : Nat), v = (s.reg r).toNat → k = b.val % 24 →
    (∃ t, exec (.ashr r b) s = .next t ∧ (t.reg r).toInt = (s.reg r).toInt / 2 ^ b.val ∧ t.pc = s.pc ∧ s.onlyRegs t [r]) ∧
    (∃ t, exec (.lshr r b) s = .next t ∧ (t.reg r).toNat = v / 2 ^ b.val ∧ t.pc = s.pc ∧ s.onlyRegs t [r]) ∧
    (∃ t, exec (.cshr r b) s = .next t ∧ (t.reg r).toNat = (v / 2 ^ k + v % 2 ^ k * 2 ^ (24 - k)) % 16777216 ∧
      t.pc = s.pc ∧ s.onlyRegs t [r]) ∧
    (∃ t, exec (.cshl r b) s = .next t ∧ (t.reg r).toNat = v * 2 ^ k % 16777216 + v / 2 ^ (24 - k) ∧
      t.pc = s.pc ∧ s.onlyRegs t [r]) ∧
    (∀ f ∈ [(Instr.ashr, 4#4), (.lshr, 2#4), (.cshr, 0#4), (.cshl, 1#4)],
      decode (0b0101#4 ++ BitVec.ofNat 4 r.val ++ 0#7 ++ BitVec.ofNat 5 b.val ++ f.2) = .ok (f.1 r b))

/-- R346 to R349, R340, R273, R607, D22, D27 (log 23, 28): the left shifts of one register and both shifts of a pair, R the high half and R+1,
modulo 16, the low half, by their formulas, the left ones under either mnemonic; Overflow only for left shifts and only under OVERFLOW_UNARY; nothing
else changes. Counts of 24 to 31, which the manual excludes, follow the formulas too: the model's choice D28 (log 29). -/
def Obligations.LeftAndDoubleShiftsFollowTheirFormulas : Prop :=
  ∀ (s : State) (r : Reg) (b : BitCount),
    (∀ i ∈ [Instr.lshl r b, .ashl r b], ∃ t, exec i s = .next t ∧
      (t.reg r).toNat = (s.reg r).toNat * 2 ^ b.val % 16777216 ∧ t.pc = s.pc ∧
      s.onlyRegsOverflow t [r] (s.params.overflowUnary && !fits24 ((s.reg r).toInt * 2 ^ b.val))) ∧
    (∀ i ∈ [Instr.lshld r b, .ashld r b], ∀ d e : Nat,
      d = (s.reg r).toNat * 16777216 + (s.reg (r + 1)).toNat → e = d * 2 ^ b.val % 281474976710656 →
      ∃ t, exec i s = .next t ∧ (t.reg r).toNat = e / 16777216 ∧ (t.reg (r + 1)).toNat = e % 16777216 ∧ t.pc = s.pc ∧
        s.onlyRegsOverflow t [r, r + 1] (s.params.overflowUnary &&
          !fits48 (((s.reg r).toInt * 16777216 + (s.reg (r + 1)).toNat) * 2 ^ b.val))) ∧
    (∀ d : Nat, d = ((s.reg r).toNat * 16777216 + (s.reg (r + 1)).toNat) / 2 ^ b.val →
      ∃ t, exec (.lshrd r b) s = .next t ∧ (t.reg r).toNat = d / 16777216 ∧ (t.reg (r + 1)).toNat = d % 16777216 ∧
        t.pc = s.pc ∧ s.onlyRegs t [r, r + 1]) ∧
    (∀ d : Int, d = ((s.reg r).toInt * 16777216 + (s.reg (r + 1)).toNat) / 2 ^ b.val →
      ∃ t, exec (.ashrd r b) s = .next t ∧ (t.reg r).toInt = d / 16777216 ∧ ((t.reg (r + 1)).toNat : Int) = d % 16777216 ∧
        t.pc = s.pc ∧ s.onlyRegs t [r, r + 1])

/-- R353, R354, R360 to R368: for a bit number of 0 to 23, MR clears bits b to 23, ML bits 0 to b, and each bit instruction tests bit b
first and then clears or sets it; every other bit and all else stay. For bit numbers of 24 to 31 the model's choice is D28 of the spec (log 29): MR
changes nothing, ML clears all, and the bit instructions test 0 and change nothing. -/
def Obligations.MasksAndBitInstructions : Prop :=
  ∀ (s : State) (r : Reg) (b : BitCount),
   (b.val ≤ 23 →
    (∃ t, exec (.mr r b) s = .next t ∧ (∀ k, bitAt (t.reg r) k = (bitAt (s.reg r) k && decide (k < b.val))) ∧
      t.pc = s.pc ∧ s.onlyRegs t [r]) ∧
    (∃ t, exec (.ml r b) s = .next t ∧ (∀ k, bitAt (t.reg r) k = (bitAt (s.reg r) k && decide (b.val < k))) ∧
      t.pc = s.pc ∧ s.onlyRegs t [r]) ∧
    (∀ f ∈ bitRows, ∃ t, exec (f.1 r b) s = .next t ∧
      (∀ k < 24, bitAt (t.reg r) k = if k = b.val then f.2.2.getD (bitAt (s.reg r) k) else bitAt (s.reg r) k) ∧
      t.pc = (if f.2.1 = some (bitAt (s.reg r) b.val) then s.pc + 1 else s.pc) ∧ s.onlyRegs t [r])) ∧
   (24 ≤ b.val →
    exec (.mr r b) s = .next s ∧
    (∃ t, exec (.ml r b) s = .next t ∧ t.reg r = 0 ∧ t.pc = s.pc ∧ s.onlyRegs t [r]) ∧
    (∀ f ∈ bitRows, exec (f.1 r b) s = .next { s with pc := if f.2.1 = some false then s.pc + 1 else s.pc }))

/-! ### IOT -/

/-- R381, R384 to R405, in a mode that may issue the code: a read copies the device register into R, a load copies R into the device
register; DIRECTIVE reads with SETTLED in bit 23 and loads every bit but that one, D10 (log 11). Enable and user mode are only made pending, sleep
begins, the attention bit is raised, PROT_FF is cleared, and the two skips skip on a settled pipeline and on a clear attention bit. SLEEP is IOT ,010.
Nothing else changes. The model's choices are that undescribed bits are copied like the others, U5 (log 54), that IODCE has its 8 described bits
only, U5 (log 58), that switches and lights are 24 bits wide, D11 (log 12), and that a condition bit loaded into ICR is not raised, so that no
test point (B) follows (log 69). -/
def Obligations.IotMovesRegistersAndSetsFunctions : Prop :=
  ∀ (s : State) (r : Reg) (dev : BitVec 16) (d : Nat), d = deviceCode s.params.iotDevHighIgnored dev → s.mayIssue d →
    (∀ f ∈ iotReads, f.1 = d →
      ∃ t, exec (.iot r dev) s = .next t ∧ t.reg r = f.2 s ∧ t.pc = s.pc ∧ s.onlyRegs t [r]) ∧
    (∀ f ∈ iotLoads, f.1 = d → exec (.iot r dev) s = .next (f.2 s (s.reg r))) ∧
    (d = 0x1B → ∃ t, exec (.iot r dev) s = .next t ∧
      (∀ k < 24, bitAt (t.reg r) k = if k = 23 then decide (s.queue = []) else bitAt s.dir k) ∧ t.pc = s.pc ∧ s.onlyRegs t [r]) ∧
    (d = 0x1A → ∃ t, exec (.iot r dev) s = .next t ∧
      (∀ k < 24, bitAt t.dir k = if k = 23 then false else bitAt (s.reg r) k) ∧ t = { s with dir := t.dir }) ∧
    (∀ f ∈ [(0x07, { s with pendIon := true }), (0x08, { s with sleeping := true }), (0x09, { s with pendUser := true }),
            (0x20, { s with attention := true }), (0x24, { s with protFF := false }),
            (0x1E, { s with pc := if s.queue = [] then s.pc + 1 else s.pc }),
            (0x21, { s with pc := if s.attention then s.pc else s.pc + 1 })],
      f.1 = d → exec (.iot r dev) s = .next f.2) ∧
    (s.mode = .executive → exec .sleep s = .next { s with sleeping := true })

/-- R382, R383, R384, D29 (log 30): a code that is not implemented, or not one of the five a user may issue in user mode, moves nothing: the low 8
bits of the code go to IODCE, ICR bit 19 is set, and nothing else changes. SLEEP in user mode is such a code. -/
def Obligations.IllegalIotIsRecorded : Prop :=
  ∀ (s : State),
    (∀ (r : Reg) (dev : BitVec 16), ¬ s.mayIssue (deviceCode s.params.iotDevHighIgnored dev) →
      ∃ t, exec (.iot r dev) s = .next t ∧ t.iodce.toNat = dev.toNat % 256 ∧
        State.abandoned { s with iodce := t.iodce } t .nonexistentDevice) ∧
    (s.mode = .user → ∃ t, exec .sleep s = .next t ∧ t.iodce.toNat = 8 ∧
      State.abandoned { s with iodce := t.iodce } t .nonexistentDevice)

/-! ### Conditions, interrupts and the other agents -/

/-- R604, R602, R511, D25, D32 (log 26, 33): a memory condition of an instruction's access abandons it: its ICR bit is set, for a protection violation
PROT_FF too, and no register, no byte of memory and nothing else changes (but by the host between the accesses, states `u` and `v`). This holds
of any word of the point of SD, and of TD, TDI and TDIX. TDR, TDIR and TDIXR stopped in their first operation send nothing and keep X, Y, Z, W and RC,
but RP keeps its steps for the words read, and REPEAT STATUS the states of the operation with Repeat set. -/
def Obligations.MemoryConditionsAbandon : Prop :=
  ∀ (s : State) (c : Cond),
    (∀ (u : State) (i x : Bool) (addr : BitVec 16) (r : Reg) (m : Manner), u = s.afterEA i →
      (∀ f ∈ [(Instr.lo i r addr, false), (.st i r addr, false), (.j i x addr, x), (.pushj i x addr, x), (.xeq i x addr, x),
              (.sd i x m addr, x)],
        s.ea i f.2 addr = .error c → ∃ t, exec f.1 s = .next t ∧ s.abandoned t c) ∧
      (∀ e, s.ea i false addr = .ok e →
        (u.memRead e = .error c → ∃ t, exec (.lo i r addr) s = .next t ∧ u.abandoned t c) ∧
        (u.physical e = .error c → ∃ t, exec (.st i r addr) s = .next t ∧ u.abandoned t c)) ∧
      (∀ e, s.ea i x addr = .ok e →
        (u.memRead e = .error c → ∃ t, exec (.xeq i x addr) s = .next t ∧ u.abandoned t c) ∧
        (u.memRead e = .error c → ∃ t, exec (.sd i x m addr) s = .next t ∧ u.abandoned t c) ∧
        (u.physical (s.reg Reg.sp - 1) = .error c → ∃ t, exec (.pushj i x addr) s = .next t ∧ u.abandoned t c))) ∧
    (∀ (r : Reg) (n : BitVec 12),
      (s.physical (s.reg Reg.sp - 1) = .error c → ∃ t, exec (.regpj r n) s = .next t ∧ s.abandoned t c) ∧
      (s.memRead (s.reg Reg.sp) = .error c →
        ∀ i ∈ [Instr.regjs r n, .popj, .popjof n], ∃ t, exec i s = .next t ∧ s.abandoned t c)) ∧
    (∀ r1 r2 : Reg,
      (∀ f ∈ pushRows, s.physical (s.reg r2 + f.2.1) = .error c → ∃ t, exec (f.1 r1 r2) s = .next t ∧ s.abandoned t c) ∧
      (∀ f ∈ popRows, s.memRead (s.reg r2 + f.2.1) = .error c → ∃ t, exec (f.1 r1 r2) s = .next t ∧ s.abandoned t c)) ∧
    (∀ (v : State) (i x : Bool) (addr : BitVec 16) (m : Manner) (e : Word) (ds : List Word), s.ea i x addr = .ok e →
      (s.afterEA i).reads e 1 ds v → ds ≠ [] → ds.length < s.dim.nf.toNat →
      v.gap.memRead (e + BitVec.ofNat 24 ds.length) = .error c → ∃ t, exec (.sd i x m addr) s = .next t ∧ v.gap.abandoned t c) ∧
    (∀ f ∈ tableDraws, ∀ (v : State) (moved : Word) (f1 : Fsm1) (f2 : Fsm2), s.repeatBit = false → s.pointStops f.2.1 f.2.2.1 c v moved →
      ∃ t, exec (f.1 f1 f2) s = .next t ∧
        (f.2.2.2 = false → v.abandoned t c) ∧
        (f.2.2.2 = true → State.abandoned { v with regs := t.regs, rsr := t.rsr } t c ∧ t.reg Reg.rp = s.reg Reg.rp + moved ∧
          (∀ k, k ≠ Reg.rp → t.reg k = s.reg k) ∧ t.drawRecorded f1 f2 true))

/-- R602, R604, R606, R610, R612, R613, R236, R635, D9, D47 (log 7, 10, 48, 53, 66): the low level is requested by a condition of ICR 7 or 18 to 23 whose IMR bit
is set, by PROT_FF with IMR bit 7, by ICR 6 or 17, which have no mask, or by HIT with Interrupt On Hit, and taken if the low-level mask bit is set, its
lock is clear and the machine does not sleep; the high level is requested by the host's bit and taken if its mask bit is set and its lock
clear. An interrupt whose vector holds PUSHJ to `addr` is entered (`enteredFrom`: TOS takes the
PC, the mode is executive, the level is locked, ICR, IMR and all else stay). At test point (A) the PC saved is one past the displaced
instruction, or, in place of a word of XEQ or REX and asleep, the PC as it stands. At test point (B), in the same step in which an instruction
raised a condition, it is the PC as that instruction left it; so it is where the pipeline's output has just raised one between instructions, the
write count reaching zero among them: the PC of the instruction to come (R127, R681; log 66). -/
def Obligations.InterruptEntrySavesThePc : Prop :=
  (∀ v : State,
    (v.lowRequest = true ↔ (∃ k ∈ [7, 18, 19, 20, 21, 22, 23], bitAt v.icr k = true ∧ bitAt v.imr k = true) ∨
      (v.protFF = true ∧ bitAt v.imr 7 = true) ∨ bitAt v.icr 6 = true ∨ bitAt v.icr 17 = true ∨
      (bitAt v.dir 7 = true ∧ bitAt v.dir 21 = true)) ∧
    (v.lowTaken = true ↔ v.lowRequest = true ∧ bitAt v.imr v.params.imrLoBit = true ∧ v.lockLo = false ∧ v.sleeping = false) ∧
    (v.highTaken = true ↔ v.hostInterrupt = true ∧ bitAt v.imr v.params.imrHiBit = true ∧ v.lockHi = false) ∧
    (v.interruptTaken = true ↔ v.highTaken = true ∨ v.lowTaken = true)) ∧
  ∀ (s u : State) (high : Bool) (addr : BitVec 16) (p : Nat), s.inputs = [] →
    u = { State.settle { s with turns := [] } with raised := false } → u.Inv →
    (u.canEnter high addr p → ∃ t, step s = .next t ∧
      State.enteredFrom (if u.sleeping ∨ u.xw ≠ none ∨ (State.settle { s with turns := [] }).raised then u else { u with pc := u.pc + 1 })
        t high addr p) ∧
    (∀ (w : Word) (i : Instr) (x : State), u.interruptTaken = false → u.sleeping = false →
      ((u.xw = none ∧ u.memRead u.pc = .ok w ∧ exec i { u with pc := u.pc + 1 } = .next x) ∨
        (u.xw = some w ∧ exec i { u with xw := none } = .next x)) →
      decodeWith u.params.stackBit22 w = .ok i → x.raised = true → State.canEnter { x with raised := false } high addr p →
      ∃ t, step s = .next t ∧ State.enteredFrom { x with raised := false } t high addr p)

/-- R392, R635: asleep, and with no high-level interrupt to be taken, a step only lets the pipeline finish: low-level requests wait and PC
stays. -/
def Obligations.SleepWaitsForTheHighLevel : Prop :=
  ∀ (s u : State), s.inputs = [] → u = { State.settle { s with turns := [] } with raised := false } → u.sleeping = true →
    u.highTaken = false → step s = .next u

/-- R611, R620 to R622: IOT 07 and IOT 011 change neither lock nor mode; the POPJ after them returns through TOS, clears both locks (ION_CLEARS =
both, log 31) and enters user mode. -/
def Obligations.ReturnFromAnInterruptHandler : Prop :=
  ∀ (s : State) (v : Word), s.mode = .executive → s.params.ionInnermost = false → s.memRead (s.reg Reg.sp) = .ok v →
    ∃ a b c, exec (.iot 0 7) s = .next a ∧ exec (.iot 0 9) a = .next b ∧ exec .popj b = .next c ∧
      b.mode = .executive ∧ b.lockLo = s.lockLo ∧ b.lockHi = s.lockHi ∧
      c.mode = .user ∧ c.lockLo = false ∧ c.lockHi = false ∧ c.pendIon = false ∧ c.pendUser = false ∧
      c.pc = s.reg Reg.tos ∧ c.reg Reg.tos = v ∧ c.reg Reg.sp = s.reg Reg.sp + 1

/-- R15, R114, R126, R430, R530, R573, R604, R630, R641, R643 to R645 (log 16, 17, 52, 66): a step of the pipeline takes the oldest command of the
queue and applies it, and settling does so until the queue is empty; applying a command puts none into the queue. Between two cycles a condition
that the output raises is tested at once (`testB`). A clock tick sets ICR bit 20 if its SYNC bit is set and is not tested there; the host writes
bits 19, 20, 22 and 23 of its register, of which bit 21 is the sleep; it reads and writes words of memory at absolute addresses; the two host
interrupts are the levels of R643 and R644. Each changes nothing else. The host's accesses also come between two accesses of one instruction
(`gap`), one after another, where they change nothing but memory and what the host has seen; where no other agent acts, nothing changes there. -/
def Obligations.OtherAgentsActBetweenCycles : Prop :=
  (∀ (s : State) (ts : Turns) (rest : List Input),
    (∀ c b, (c, b) ∈ [(ClockSource.external, 19), (.host, 20), (.sixtyHertz, 21), (.adjustable, 22)] →
      s.inputs = .agent ts (.tick c) :: rest → ∃ t, step s = .next t ∧
        (∀ k, bitAt t.icr k = (bitAt s.icr k || (bitAt s.sync b && decide (k = 20)))) ∧
        t = { s with inputs := rest, turns := [], icr := t.icr }) ∧
    (∀ v, s.inputs = .agent ts (.hostRegister v) :: rest → ∃ t, step s = .next t ∧
      (∀ k, 19 ≤ k → k < 24 → bitAt t.hostRegister k = if k = 21 then s.sleeping else bitAt v k) ∧
      t.hostIntAttention = (bitAt v 19 && bitAt v 20) ∧ t.hostIntStop = (s.sleeping && bitAt v 22) ∧
      t = { s with inputs := rest, turns := [], attention := t.attention, attentionMask := t.attentionMask, stopMask := t.stopMask,
                   hostInterrupt := t.hostInterrupt }) ∧
    (∀ a, s.inputs = .agent ts (.hostRead a) :: rest → a.toNat < s.params.memSize →
      step s = .next { s with inputs := rest, turns := [], hostSeen := Memory.readWord s.mem a.toNat :: s.hostSeen }) ∧
    (∀ a v, s.inputs = .agent ts (.hostWrite a v) :: rest → s.Inv → a.toNat < s.params.memSize → ∃ t, step s = .next t ∧
      State.onlyStore { s with inputs := rest, turns := [] } t a.toNat v [] ∧ t.pc = s.pc) ∧
    (∀ t : State, s.inputs = .agent ts .pipeline :: rest → t = State.pipelineStep { s with inputs := rest, turns := ts } →
      step s = .next { State.testB 2 t with turns := [] } ∧ (t.raised = false → step s = .next { t with turns := [] }))) ∧
  (∀ s : State, (s.queue = [] → s.pipelineStep = s ∧ s.settle = s) ∧
    (∀ (c : Command) (rest : List Command), s.queue = c :: rest →
      s.pipelineStep = State.apply { s with queue := rest } c ∧ s.pipelineStep.queue = rest ∧ s.settle = s.pipelineStep.settle) ∧
    s.settle.queue = []) ∧
  (∀ (s : State), s.onlyHostAccesses s.gap ∧ (s.turns = [] → s.gap = s) ∧
    (∀ (es : List AgentEvent) (rest : Turns),
      (s.turns = [] :: rest → s.gap = { s with turns := rest }) ∧
      (∀ a, s.turns = (.hostRead a :: es) :: rest → a.toNat < s.params.memSize →
        s.gap = State.gap { s with turns := es :: rest, hostSeen := Memory.readWord s.mem a.toNat :: s.hostSeen }) ∧
      (∀ a v, s.turns = (.hostWrite a v :: es) :: rest → a.toNat < s.params.memSize →
        s.gap = State.gap { s with turns := es :: rest, mem := Memory.writeWord s.mem a.toNat v })))

/-- R114, R126, R127, R602, R604, R606 (log 16, 17): a word of pipeline output goes to the address in WP; WP and WC step up, and ICR bit 21 is set when
WC reaches zero;
nothing else changes. A word whose write raises is lost, its condition is recorded (PROT_FF too for a protection violation), and WP and WC step
all the same. Each of the two is a `raise` of R602: test point (B) follows (`raised`). Under WC_STOPS_OUTPUT a word that finds WC = 0 is dropped.
Several words follow one another in order, the host's accesses coming after each. -/
def Obligations.OutputWordsGoThroughTheWritePointer : Prop :=
  ∀ (s t : State) (v : Word), s.Inv → t = s.outputWord v →
    (∀ vs : List Word, s.outputWords (v :: vs) = t.gap.outputWords vs) ∧
    (s.params.wcStopsOutput = true → s.reg Reg.wc = 0 → t = s) ∧
    ((s.params.wcStopsOutput = false ∨ s.reg Reg.wc ≠ 0) →
      t = { s with regs := t.regs, mem := t.mem, icr := t.icr, protFF := t.protFF, raised := t.raised } ∧
      t.reg Reg.wp = s.reg Reg.wp + 1 ∧ t.reg Reg.wc = s.reg Reg.wc + 1 ∧
      (∀ k, k ≠ Reg.wp → k ≠ Reg.wc → t.reg k = s.reg k) ∧
      (∀ p, s.physical (s.reg Reg.wp) = .ok p →
        Memory.readWord t.mem p = v ∧ (∀ a, a < 3 * p ∨ 3 * p + 3 ≤ a → Memory.readByte t.mem a = Memory.readByte s.mem a) ∧
        (∀ k, bitAt t.icr k = (bitAt s.icr k || (decide (s.reg Reg.wc + 1 = 0) && decide (k = 21)))) ∧ t.protFF = s.protFF ∧
        t.raised = (s.raised || decide (s.reg Reg.wc + 1 = 0))) ∧
      (∀ c, s.physical (s.reg Reg.wp) = .error c →
        t.mem = s.mem ∧ t.raised = true ∧
        (∀ k, bitAt t.icr k = (bitAt s.icr k || decide (k = c.bit) || (decide (s.reg Reg.wc + 1 = 0) && decide (k = 21)))) ∧
        t.protFF = (s.protFF || decide (c = .memoryProtection))))

/-! ### Load and unload of the pipeline registers -/

/-- R431, R424, R422, R545: what a load puts into the register it addresses. A four-word register takes four words, added to SAVE for the
relative manner, and no other register changes; a two-word register takes two, and of four the last two, each pair loaded in turn; HITANG is one of
them (CDIR and SELINT have their own rules, CdirAndSelintLoadUnderTheirTakeBits); the size manners act as the plain ones but in the 2D
four-component load, D33 (log 34); a row of the matrix array takes its elements, or its old ones plus
them, and no other element changes; MMP puts the product with matrix a/4 into row a mod 4 of A, in 2D with its 2 by 2 part; MDIR takes each bit by
its J, K pair and Q, and of four words each pair in turn. The model's choices are MMP for every a, D34 (log 35), the bits of MDIR, D41 (log 42), its
four-word load, D33 (log 34), and the arithmetic, D20 (log 21). -/
def Obligations.LoadsPutTheirDataInTheRegister : Prop :=
  ∀ (s : State) (a : DevAddr) (d0 d1 d2 d3 : Word),
    (12 ≤ a.val →
      (s.load .cla a (.four d0 d1 d2 d3)).cd.quad a = ⟨d0, d1, d2, d3⟩ ∧
      (s.load .clr a (.four d0 d1 d2 d3)).cd.quad a =
        ⟨s.cd.save.c0 + d0, s.cd.save.c1 + d1, s.cd.save.c2 + d2, s.cd.save.c3 + d3⟩ ∧
      (∀ m ∈ [LoadManner.cla, .clr], ∃ t, t = s.load m a (.four d0 d1 d2 d3) ∧
        (∀ b : DevAddr, 12 ≤ b.val → b ≠ a → t.cd.quad b = s.cd.quad b) ∧
        t = { s with cd := t.cd } ∧ t.cd = { s.cd with save := t.cd.save, view := t.cd.view, wind := t.cd.wind, inst := t.cd.inst })) ∧
    (a.val ≤ 8 ∨ a = 10 →
      (s.load .cla a (.two d0 d1)).cdRead a = (d0, d1) ∧
      (∀ b : DevAddr, b.val < 12 → b ≠ a → (s.load .cla a (.two d0 d1)).cdRead b = s.cdRead b) ∧
      (∃ t c, t = s.load .cla a (.two d0 d1) ∧ c = t.cd ∧ t = { s with cd := c } ∧
        c = { s.cd with save := c.save, view := c.view, wind := c.wind, inst := c.inst, name := c.name, hitang := c.hitang })) ∧
    (a.val < 12 →
      s.load .clr a (.two d0 d1) = s.load .cla a (.two (s.cd.save.c0 + d0) (s.cd.save.c1 + d1)) ∧
      s.load .cla a (.four d0 d1 d2 d3) = (s.load .cla a (.two d0 d1)).load .cla a (.two d2 d3) ∧
      s.load .clr a (.four d0 d1 d2 d3) =
        s.load .cla a (.four (s.cd.save.c0 + d0) (s.cd.save.c1 + d1) (s.cd.save.c2 + d2) (s.cd.save.c3 + d3)) ∧
      s.load .clsa a (.two d0 d1) = s.load .cla a (.two d0 d1) ∧ s.load .clsr a (.two d0 d1) = s.load .clr a (.two d0 d1)) ∧
    s.load .clsa a (.four d0 d1 d2 d3) = s.load .cla a (.four d0 d1 d2 d3) ∧
    s.load .clsr a (.four d0 d1 d2 d3) = s.load .clr a (.four d0 d1 d2 d3) ∧
    (∀ (b : DevAddr) (j : Fin 4),
      (s.load .mm a (.four d0 d1 d2 d3)).mmAt b j = (if b = a then [d0, d1, d2, d3][j] else s.mmAt b j) ∧
      (s.load .mmr a (.four d0 d1 d2 d3)).mmAt b j = (if b = a then [d0, d1, d2, d3][j] + s.mmAt a j else s.mmAt b j) ∧
      (s.load .mm a (.two d0 d1)).mmAt b j = (if b = a ∧ j.val < 2 then [d0, d1, 0, 0][j] else s.mmAt b j) ∧
      (s.load .mmr a (.two d0 d1)).mmAt b j = (if b = a ∧ j.val < 2 then [d0, d1, 0, 0][j] + s.mmAt a j else s.mmAt b j) ∧
      (s.load .mmp a (.four d0 d1 d2 d3)).mmAt b j =
        (if b = rowOfA a then accumulate s.params.arith [fmul s.params.arith d0 (s.mmAt (rowOf (a.val / 4) 0) j),
          fmul s.params.arith d1 (s.mmAt (rowOf (a.val / 4) 1) j), fmul s.params.arith d2 (s.mmAt (rowOf (a.val / 4) 2) j),
          fmul s.params.arith d3 (s.mmAt (rowOf (a.val / 4) 3) j)]
        else s.mmAt b j) ∧
      (s.load .mmp a (.two d0 d1)).mmAt b j =
        (if b = rowOfA a ∧ j.val < 2 then accumulate s.params.arith [fmul s.params.arith d0 (s.mmAt (rowOf (a.val / 4) 0) j),
          fmul s.params.arith d1 (s.mmAt (rowOf (a.val / 4) 1) j)]
        else s.mmAt b j)) ∧
    (∀ m ∈ [LoadManner.mm, .mmr, .mmp], ∀ d ∈ [Tuple.two d0 d1, .four d0 d1 d2 d3], ∃ t, t = s.load m a d ∧ t = { s with mm := t.mm }) ∧
    (∃ t, t = s.load .mdr a (.four d0 d1 d2 d3) ∧ t = (s.load .mdr a (.two d0 d1)).load .mdr a (.two d2 d3) ∧
      t = { s with mdir := t.mdir }) ∧
    (s.params.mdirLayout = Params.default.mdirLayout →
      (s.load .mdr a (.two d0 d1)).mdir.q = d1 ∧
      (∀ f ∈ [(Mdir.moc, 0), (Mdir.mom, 2), (Mdir.curve, 4), (Mdir.tr1, 6), (Mdir.tr0, 8)],
        f.1 (s.load .mdr a (.two d0 d1)).mdir =
          ((bitAt d0 f.2 && !(f.1 s.mdir)) || (!(bitAt d0 (f.2 + 1)) && f.1 s.mdir))))

/-- R441, R571, R556, D33 (log 34): the 2D four-component load writes both halves of the register that address 014 + k names, the first half
the SAVE pair or the negative of the data (with SAVE added in the relative manners), and AIC becomes whether the
register and WINDOW have a common point, with closed edges (log 22); the other bits of DIRECTIVE stay. -/
def Obligations.FourComponentLoadsIn2d : Prop :=
  ∀ (s : State) (a : DevAddr) (d0 d1 : Word), 12 ≤ a.val →
    ∀ f ∈ [(LoadManner.cla, s.cd.save.c0, s.cd.save.c1, d0, d1),
           (.clr, s.cd.save.c0, s.cd.save.c1, s.cd.save.c0 + d0, s.cd.save.c1 + d1),
           (.clsa, -d0, -d1, d0, d1),
           (.clsr, s.cd.save.c0 - d0, s.cd.save.c1 - d1, s.cd.save.c0 + d0, s.cd.save.c1 + d1)],
      ∃ t r, t = s.load f.1 a (.two d0 d1) ∧ r = t.cd.quad a ∧ r = ⟨f.2.1, f.2.2.1, f.2.2.2.1, f.2.2.2.2⟩ ∧
        (∀ b : DevAddr, 12 ≤ b.val → b ≠ a → t.cd.quad b = s.cd.quad b) ∧
        (∀ k < 24, bitAt t.dir k = if k = 22 then
            decide (t.cd.wind.c0.toInt ≤ r.c2.toInt ∧ r.c0.toInt ≤ t.cd.wind.c2.toInt ∧
              t.cd.wind.c1.toInt ≤ r.c3.toInt ∧ r.c1.toInt ≤ t.cd.wind.c3.toInt)
          else bitAt s.dir k) ∧
        t = { s with dir := t.dir, cd := t.cd }

/-- R562, R563, D42 (log 43): the loads of CDIR and SELINT, whose bits are in the first word, CDIR's second word being ignored; that the scope
violation is tested at the load is R563's own choice (log 65). CDIR takes its five output bits and its SELF bits under their take bits and the other three by
J, K pairs; SELINT takes the select bits under the take bit, the permit bits in executive mode only, and the intensity, and a
selected scope without permit sets ICR bit 6. -/
def Obligations.CdirAndSelintLoadUnderTheirTakeBits : Prop :=
  ∀ (s : State) (w0 w1 : Word),
    (∃ c, s.load .cla 9 (.two w0 w1) = { s with cd := { s.cd with cdir := c } } ∧
      (∀ f ∈ [(Cdir.stos, 4), (Cdir.stom, 5), (Cdir.ztos, 6), (Cdir.ptom, 7), (Cdir.ntom, 8)],
        f.1 c = if bitAt w0 9 then bitAt w0 f.2 else f.1 s.cd.cdir) ∧
      (∀ f ∈ [(Cdir.curve, 10), (Cdir.mef, 12), (Cdir.dashed, 14)],
        f.1 c = ((bitAt w0 f.2 && !(f.1 s.cd.cdir)) || (!(bitAt w0 (f.2 + 1)) && f.1 s.cd.cdir))) ∧
      (∀ f ∈ [(Cdir.selfX, 17), (Cdir.selfY, 18)], f.1 c = if bitAt w0 19 then bitAt w0 f.2 else f.1 s.cd.cdir)) ∧
    (∃ t, t = s.load .cla 11 (.two w0 w1) ∧ t.cd = { s.cd with select := t.cd.select, permit := t.cd.permit, intensity := w1 } ∧
      (∀ k < 8, t.cd.select.getMsbD k = if bitAt w0 10 then bitAt w0 (2 + k) else s.cd.select.getMsbD k) ∧
      (∀ k < 8, t.cd.permit.getMsbD k = if s.mode = .executive then bitAt w0 (11 + k) else s.cd.permit.getMsbD k) ∧
      (∀ k, bitAt t.icr k = true ↔ bitAt s.icr k = true ∨
        (k = 6 ∧ ∃ j < 8, t.cd.select.getMsbD j = true ∧ t.cd.permit.getMsbD j = false)) ∧
      t = { s with cd := t.cd, icr := t.icr, raised := t.raised })

/-- R430, R436, R437, R445 to R452, R465 to R472, R544, R438, R114, D31, D36 (log 32, 37): a load of one register, after the pipeline has settled (state
`u`) and with nothing to resume, reads its NW words upward from RP, a retrieve the words below DSP from the last down, the host's accesses coming
between them (state `v` after the last; log 16), loads the addressed register and steps RP up or DSP down by NW; RTMMS first copies its old row into
row a mod 4 of A (D34, log 35; the copy is that of PushAndPopMoveMatrixRows). RC, the other registers and memory stay, and REPEAT STATUS records the
register with Repeat clear. -/
def Obligations.LoadsAndRetrievesOfOneRegister : Prop :=
  ∀ (s u v : State) (i : Instr) (m : LoadManner) (a : DevAddr) (d : Tuple) (down slide : Bool) (p : Reg) (nw : Word), u = s.settle →
    loadsFrom i m a down slide → p = (if down then Reg.dsp else Reg.rp) → nw = (if u.twoD then 2 else 4) →
    u.oneRegister → d.is2d = u.twoD →
    (if down then u.reads (u.reg p - 1) (-1) d.words.reverse v else u.reads (u.reg p) 1 d.words v) →
    ∃ t, exec i s = .next t ∧ t.reg p = (if down then u.reg p - nw else u.reg p + nw) ∧ v.keepsBeside t [p] ∧ t.transferRecorded a ∧
      t = { (if slide then v.copyRow u.twoD a (rowOfA a) else v).load m a d with regs := t.regs, rsr := t.rsr }

/-- R436, R437, R438, R472, D31, D32, D36 (log 32, 33, 37): with RC = -n (or one register) and no other agent acting, a load moves n registers at rising
addresses from RP upward, a retrieve n registers at falling addresses from DSP downward; register j has its words upward from `low j`. At the end RC is 0,
and RP or DSP n NW further. If a word of register k cannot be read, the words read before it in that register having been read, the first k registers
are loaded, RC and the pointer have moved for those alone, the condition is recorded and REPEAT STATUS keeps the Repeat bit and the address of
register k. -/
def Obligations.CountedLoadsAndRetrievesMoveOrStopAtAFault : Prop :=
  ∀ (s u : State) (i : Instr) (m : LoadManner) (a : DevAddr) (n : Nat) (d : Nat → Tuple) (down slide : Bool) (p : Reg), u = s.settle →
    loadsFrom i m a down slide → p = (if down then Reg.dsp else Reg.rp) → u.asksFor n → u.turns = [] → (∀ k, (d k).is2d = u.twoD) →
    ∀ (nw k : Nat) (v : State) (low moved : Nat → Word) (r : Nat → DevAddr), nw = (if u.twoD then 2 else 4) → k ≤ n →
      (∀ j, low j = if down then u.reg p - BitVec.ofNat 24 (nw * (j + 1)) else u.reg p + BitVec.ofNat 24 (nw * j)) →
      (∀ j, moved j = if down then u.reg p - BitVec.ofNat 24 (nw * j) else u.reg p + BitVec.ofNat 24 (nw * j)) →
      (∀ j, r j = if down then a - Fin.ofNat 16 j else a + Fin.ofNat 16 j) →
      (∀ j < k, u.wordsAt (low j) (d j).words) →
      v = (List.range k).foldl (fun w j =>
        (if slide then w.copyRow u.twoD (r j) (rowOfA (r j)) else w).load m (r j) (d j)) u →
      (k = n → ∃ t, exec i s = .next t ∧ t.reg Reg.rc = (if bitAt (u.reg Reg.rc) 0 then 0 else u.reg Reg.rc) ∧ t.reg p = moved n ∧
        u.keepsBeside t [Reg.rc, p] ∧ t.transferRecorded (r (n - 1)) ∧ t = { v with regs := t.regs, rsr := t.rsr }) ∧
      (∀ (w : Nat) (c : Cond), k < n → w < nw →
        (∀ (l : Nat) (h : l < (d k).words.length), (if down then w < l else l < w) →
          u.memRead (low k + BitVec.ofNat 24 l) = .ok (d k).words[l]) →
        u.memRead (low k + BitVec.ofNat 24 w) = .error c →
        ∃ t, exec i s = .next t ∧ t.reg Reg.rc = u.reg Reg.rc + BitVec.ofNat 24 k ∧ t.reg p = moved k ∧
          u.keepsBeside t [Reg.rc, p] ∧ t.repeatBit = true ∧ fieldAt t.rsr 19 22 = (r k).val ∧
          State.abandoned { v with regs := t.regs, rsr := t.rsr } t c)

/-- R432, R436 to R438, R453 to R455, R470, R473 to R475, R545, R562, R563, R114: a store or sink of one register writes its NW words upward from RP or DSP,
the host's accesses coming between them (state `v` after the last), and steps the pointer by NW; SKMMS then copies row a mod 4 of A into the row (D34, log
35). With no other agent acting the words stand there and every other byte stays. The other registers and every other pipeline register stay; REPEAT
STATUS records the register with Repeat clear (D31, log 32). The words are those of the register; a two-word register in 3D gives two copies and a
four-word register in 2D its last two words, which is D33 (log 34); CDIR and MDIR give the words that restore them, in the bits of D42 and D41 (log 43,
42), SELINT its fields. -/
def Obligations.StoresAndSinksOfOneRegister : Prop :=
  (∀ (s : State),
    (∀ f ∈ [((0 : DevAddr), s.cd.save.c0, s.cd.save.c1), (1, s.cd.save.c2, s.cd.save.c3), (2, s.cd.view.c0, s.cd.view.c1),
        (3, s.cd.view.c2, s.cd.view.c3), (4, s.cd.wind.c0, s.cd.wind.c1), (5, s.cd.wind.c2, s.cd.wind.c3), (6, s.cd.inst.c0, s.cd.inst.c1),
        (7, s.cd.inst.c2, s.cd.inst.c3), (8, s.cd.name.1, s.cd.name.2), (10, s.cd.hitang.1, s.cd.hitang.2)],
      s.unload true .clippingDivider f.1 = .two f.2.1 f.2.2 ∧ s.unload false .clippingDivider f.1 = .four f.2.1 f.2.2 f.2.1 f.2.2) ∧
    (∀ f ∈ [((12 : DevAddr), s.cd.save), (13, s.cd.view), (14, s.cd.wind), (15, s.cd.inst)],
      s.unload false .clippingDivider f.1 = .four f.2.c0 f.2.c1 f.2.c2 f.2.c3 ∧ s.unload true .clippingDivider f.1 = .two f.2.c2 f.2.c3) ∧
    (∃ w : Word, s.unload true .clippingDivider 9 = .two w 0 ∧ s.unload false .clippingDivider 9 = .four w 0 w 0 ∧
      ∀ k < 24, bitAt w k = [false, false, false, false, s.cd.cdir.stos, s.cd.cdir.stom, s.cd.cdir.ztos, s.cd.cdir.ptom, s.cd.cdir.ntom, true,
        s.cd.cdir.curve, !s.cd.cdir.curve, s.cd.cdir.mef, !s.cd.cdir.mef, s.cd.cdir.dashed, !s.cd.cdir.dashed, false, s.cd.cdir.selfX,
        s.cd.cdir.selfY, true].getD k false) ∧
    (∃ w : Word, s.unload true .clippingDivider 11 = .two w s.cd.intensity ∧
      s.unload false .clippingDivider 11 = .four w s.cd.intensity w s.cd.intensity ∧
      ∀ k < 24, bitAt w k = if 2 ≤ k ∧ k ≤ 9 then s.cd.select.getMsbD (k - 2)
        else if 11 ≤ k ∧ k ≤ 18 then s.cd.permit.getMsbD (k - 11) else false) ∧
    (∀ a : DevAddr, s.unload true .matrix a = .two (s.mmAt a 0) (s.mmAt a 1) ∧
      s.unload false .matrix a = .four (s.mmAt a 0) (s.mmAt a 1) (s.mmAt a 2) (s.mmAt a 3)) ∧
    (s.params.mdirLayout = Params.default.mdirLayout → ∀ a : DevAddr, ∃ w : Word, s.unload true .directive a = .two w s.mdir.q ∧
      s.unload false .directive a = .four w s.mdir.q w s.mdir.q ∧
      ∀ k < 24, bitAt w k = [s.mdir.moc, !s.mdir.moc, s.mdir.mom, !s.mdir.mom, s.mdir.curve, !s.mdir.curve, s.mdir.tr1, !s.mdir.tr1,
        s.mdir.tr0, !s.mdir.tr0].getD k false)) ∧
  ∀ (s u v : State) (i : Instr) (w : Device) (a : DevAddr) (p : Reg) (slide : Bool) (ps : List Nat) (ws : List Word),
    u = s.settle → storesThrough i w a p slide →
    u.Inv → u.oneRegister → ws = (u.unload u.twoD w a).words → u.writes (u.reg p) ws v →
    ∃ t, exec i s = .next t ∧ t.reg p = u.reg p + (if u.twoD then 2 else 4) ∧ (∀ k, k ≠ p → t.reg k = u.reg k) ∧
      (u.turns = [] → ps.length = ws.length → ps.Nodup →
        (∀ (k : Nat) (h : k < ps.length), u.physical (u.reg p + BitVec.ofNat 24 k) = .ok ps[k]) → wordsStored u.mem t.mem ps ws) ∧
      t.transferRecorded a ∧
      t = { (if slide then v.copyRow u.twoD (rowOfA a) a else v) with regs := t.regs, rsr := t.rsr }

/-- R436, R437, R438, R474, D31, D32, D34 (log 32, 33, 35): with RC = -n (or one register) and no other agent acting, a store or sink writes n registers
at rising addresses upward from RP or DSP. At the end RC is 0 and the pointer n NW higher. If word l of register k cannot be written, the first k
registers and the l words before it are written, RC and the pointer have moved for the k registers alone, SKMMS has replaced k rows, the condition is
recorded and REPEAT STATUS keeps the Repeat bit and the address of register k. -/
def Obligations.CountedStoresAndSinksMoveOrStopAtAFault : Prop :=
  ∀ (s u v : State) (i : Instr) (w : Device) (a : DevAddr) (p : Reg) (slide : Bool) (n nw k l : Nat) (z : Nat → State) (ws : Nat → List Word),
    u = s.settle → storesThrough i w a p slide → u.asksFor n → u.turns = [] → nw = (if u.twoD then 2 else 4) → k ≤ n →
    (∀ j, z j = (List.range j).foldl (fun y h =>
      if slide then y.copyRow u.twoD (rowOfA (a + Fin.ofNat 16 h)) (a + Fin.ofNat 16 h) else y) u) →
    (∀ j, ws j = ((z j).unload u.twoD w (a + Fin.ofNat 16 j)).words) →
    u.writes (u.reg p) ((List.range k).flatMap ws ++ (ws k).take l) v →
    (k = n → l = 0 → ∃ t, exec i s = .next t ∧ t.reg Reg.rc = (if bitAt (u.reg Reg.rc) 0 then 0 else u.reg Reg.rc) ∧
      t.reg p = u.reg p + BitVec.ofNat 24 (nw * n) ∧ (∀ q, q ≠ Reg.rc → q ≠ p → t.reg q = u.reg q) ∧
      t.transferRecorded (a + Fin.ofNat 16 (n - 1)) ∧ t = { v with regs := t.regs, rsr := t.rsr, mm := (z n).mm }) ∧
    (∀ c : Cond, k < n → l < nw → u.physical (u.reg p + BitVec.ofNat 24 (nw * k + l)) = .error c →
      ∃ t, exec i s = .next t ∧ t.reg Reg.rc = u.reg Reg.rc + BitVec.ofNat 24 k ∧ t.reg p = u.reg p + BitVec.ofNat 24 (nw * k) ∧
        (∀ q, q ≠ Reg.rc → q ≠ p → t.reg q = u.reg q) ∧ t.repeatBit = true ∧ fieldAt t.rsr 19 22 = (a + Fin.ofNat 16 k).val ∧
        State.abandoned { v with regs := t.regs, rsr := t.rsr, mm := (z k).mm } t c)

/-- R477, R478, R438, R431, D34, D31 (log 35, 32): a row copied to another gives it its elements, two in 2D and four in 3D, and every other element
and all else stay (so do the slides of a retrieve and a sink). PUSHMM copies row a mod 4 of A into row a and POPMM row a into row a mod 4 of A, for one register or,
with RC = -n and no other agent acting, for n of them at rising addresses; neither uses memory, RP or DSP. REPEAT STATUS records the last
register with Repeat clear. -/
def Obligations.PushAndPopMoveMatrixRows : Prop :=
  (∀ (v : State) (twoD : Bool) (src dst : DevAddr), ∃ t, t = v.copyRow twoD src dst ∧ t = { v with mm := t.mm } ∧
    ∀ (b : DevAddr) (j : Fin 4), t.mmAt b j = if b = dst ∧ (twoD = true → j.val < 2) then v.mmAt src j else v.mmAt b j) ∧
  ∀ (s u : State) (a : DevAddr), u = s.settle →
    ∀ f ∈ [(Instr.pushmm a, true), (.popmm a, false)],
      (u.oneRegister → ∃ t, exec f.1 s = .next t ∧ ∀ (b : DevAddr) (j : Fin 4),
        t.mmAt b j = if b = (if f.2 then a else rowOfA a) ∧ (u.twoD = true → j.val < 2) then u.mmAt (if f.2 then rowOfA a else a) j
          else u.mmAt b j) ∧
      (∀ n : Nat, (u.oneRegister ∧ n = 1) ∨ (u.counted n ∧ u.turns = []) →
        ∃ t v, v = (List.range n).foldl (fun w j =>
            if f.2 then w.copyRow u.twoD (rowOfA (a + Fin.ofNat 16 j)) (a + Fin.ofNat 16 j)
            else w.copyRow u.twoD (a + Fin.ofNat 16 j) (rowOfA (a + Fin.ofNat 16 j))) u ∧
          exec f.1 s = .next t ∧ t.reg Reg.rc = (if bitAt (u.reg Reg.rc) 0 then 0 else u.reg Reg.rc) ∧
          u.keepsBeside t [Reg.rc] ∧ t.transferRecorded (a + Fin.ofNat 16 (n - 1)) ∧
          t = { v with regs := t.regs, rsr := t.rsr })

/-- R476, D34 (log 35): NOMM always leaves RC zero. In 2D it changes no matrix element; else it shifts every element of A left by one place at
a time, while no element is big, up to the count (one for a count that is not negative), and no element of the other
matrices. -/
def Obligations.NormalizeShiftsMatrixA : Prop :=
  ∀ (s u : State), u = s.settle → u.repeatBit = false →
    ∃ t n, exec .nomm s = .next t ∧ t.reg Reg.rc = 0 ∧ u.keepsBeside t [Reg.rc] ∧ t.repeatBit = false ∧
      n ≤ (if bitAt (u.reg Reg.rc) 0 then 16777216 - (u.reg Reg.rc).toNat else 1) ∧
      (u.twoD = true → n = 0) ∧
      (∀ (a : DevAddr) (j : Fin 4), t.mmAt a j = if a.val < 4 then u.mmAt a j <<< n else u.mmAt a j) ∧
      (∀ k < n, ∀ (a : DevAddr) (j : Fin 4), a.val < 4 → big (u.mmAt a j <<< k) = false) ∧
      (u.twoD = false → n < (if bitAt (u.reg Reg.rc) 0 then 16777216 - (u.reg Reg.rc).toNat else 1) →
        ∃ (a : DevAddr) (j : Fin 4), a.val < 4 ∧ big (u.mmAt a j <<< n) = true) ∧
      t = { u with regs := t.regs, rsr := t.rsr, mm := t.mm }

/-- R439, R425, R456 to R464, R438, D35, D31 (log 36, 32): a register form moves one or two pipeline registers, at consecutive addresses, between
the pipeline and consecutive registers from the one its X field names. RC, RP and DSP do not count or point, and no memory is touched. REPEAT
STATUS records the last register with Repeat clear. -/
def Obligations.RegisterTransfers : Prop :=
  ∀ (s u : State) (a : DevAddr) (x : XSel) (c : Reg) (double : Bool) (nw : Nat), u = s.settle → u.repeatBit = false →
    (x, c, double) ∈ [(XSel.sac0, 0, false), (.sx, 8, false), (.sac2, 2, false), (.sz, 10, false), (.dac0, 0, true), (.dx, 8, true)] →
    nw = (if u.twoD then 2 else 4) →
    (∀ (i : Instr) (m : LoadManner) (d e : Tuple),
      ((i, m) ∈ registerLoads.map (fun f => (f.1 a x, f.2)) ∨ (i = .rlomdr x ∧ m = .mdr ∧ a = 0)) →
      u.wordsIn c d → u.wordsIn (c + Fin.ofNat 16 nw) e →
      ∃ t, exec i s = .next t ∧ u.keepsBeside t [] ∧ t.transferRecorded (if double then a + 1 else a) ∧
        t = { (if double then (u.load m a d).load m (a + 1) e else u.load m a d) with regs := t.regs, rsr := t.rsr }) ∧
    (∀ (i : Instr) (v : Device) (ws : List Word),
      ((i, v) ∈ [(Instr.rstcl a x, Device.clippingDivider), (.rstmm a x, .matrix)] ∨ (i = .rstmdr x ∧ v = .directive ∧ a = 0)) →
      ws = (u.unload u.twoD v a).words ++ (if double then (u.unload u.twoD v (a + 1)).words else []) →
      ∃ t, exec i s = .next t ∧ (∀ (k : Nat) (h : k < ws.length), t.reg (c + Fin.ofNat 16 k) = ws[k]) ∧
        (∀ r : Reg, (∀ k < ws.length, r ≠ c + Fin.ofNat 16 k) → t.reg r = u.reg r) ∧
        t.transferRecorded (if double then a + 1 else a) ∧ t = { u with regs := t.regs, rsr := t.rsr })

/-- R438, R479, R505, D31, D32 (log 32): with the Repeat bit set, the first load/unload or drawing instruction carries on what REPEAT STATUS
records rather than what it says itself. A load/unload sequence goes on as the instruction of the recorded type, device and manner at the recorded
address would begin, through RP or DSP, or through the registers of the X field of the instruction executed; a drawing sequence goes on as
the executed instruction's class would begin in the recorded states. Each clause gives the instruction executed afresh, in the state `u` (the pipeline
settled) with the Repeat bit clear, to which it comes to the same, but that a draw without repeat that a memory condition stops leaves REPEAT STATUS as it was. The model's choices (log 32) are: which class a load/unload instruction
resumes a drawing sequence in, that a device and manner without an instruction are Unimplemented. -/
def Obligations.RepeatStatusResumesTheRecordedSequence : Prop :=
  ∀ (s u : State), u = s.settle →
    (∀ (st sink : Bool) (dm : Nat) (a : DevAddr), u.recordsTransfer st sink dm a →
      (∀ i : Instr, isPointerForm i ∨ isPointerDraw i →
        (∀ f ∈ pointerForms, f.2 = (st, sink, dm) → exec i s = exec (f.1 a) u.nothingToResume) ∧
        (∀ f ∈ plainForms, f.2 = (st, sink, dm) →
          ∃ t v, exec i s = .next t ∧ exec f.1 u.nothingToResume = .next v ∧ t = { v with rsr := t.rsr }) ∧
        ((∀ f ∈ pointerForms, f.2 ≠ (st, sink, dm)) → (∀ f ∈ plainForms, f.2 ≠ (st, sink, dm)) →
          ∃ t, exec i s = .next t ∧ u.abandoned t .unimplemented)) ∧
      (∀ (i : Instr) (x : XSel), isRegisterForm x i → sink = false → ∀ f ∈ registerForms, f.2 = (st, dm) →
        ∃ t v, exec i s = .next t ∧ exec (f.1 a x) u.nothingToResume = .next v ∧ t = { v with rsr := t.rsr })) ∧
    (∀ (f1 : Fsm1) (f2 : Fsm2), u.drawRecorded f1 f2 true →
      (∀ f ∈ tableDraws, ∀ g1 g2, ∃ t v, exec (f.1 g1 g2) s = .next t ∧ exec (f.1 f1 f2) s.nothingToResume = .next v ∧
        s.resumedAs t v ∧ (f.2.2.2 = true → t = v)) ∧
      (∀ x g1 g2, exec (.rd g1 g2 x) s = exec (.rd f1 f2 x) s.nothingToResume) ∧
      (f2 = .aa → ∀ g, exec (.mmd g) s = exec (.mmd f1) s.nothingToResume ∧ exec (.mmdr g) s = exec (.mmdr f1) s.nothingToResume) ∧
      (∀ f ∈ pointerForms, ∀ b : DevAddr,
        (f.2.2.1 = false → ∃ t v, exec (f.1 b) s = .next t ∧ exec (tableDrawOf f.2.1 b f1 f2) u.nothingToResume = .next v ∧
          u.resumedAs t v ∧ (8 ≤ b.val → t = v)) ∧
        (f.2.2.1 = true → f2 = .aa → exec (f.1 b) s = exec (if 8 ≤ b.val then .mmdr f1 else .mmd f1) u.nothingToResume)) ∧
      (∀ f ∈ registerForms, ∀ (b : DevAddr) (x : XSel), exec (f.1 b x) s = exec (.rd f1 f2 x) u.nothingToResume))

/-! ### Drawing -/

/-- R498, R493 to R495, R505, R114, R694, D37 (log 38): SD fetches the NF words of its point at the effective address, the host's accesses coming
between them (state `v` after the last), forms the point in the form of its manner and sends the operation; REPEAT STATUS records the operation and
the form in the codes of D31 (log 32), with its Repeat bit left alone, which is the model's choice where it was set (U8; log 59); RP, RC and
the PC are not used. -/
def Obligations.SingleDrawSendsItsPoint : Prop :=
  ∀ (s v : State) (i x : Bool) (addr : BitVec 16) (e : Word) (ds : List Word), s.ea i x addr = .ok e →
    ds.length = s.dim.nf.toNat → (s.afterEA i).reads e 1 ds v →
    ∀ f ∈ [(Manner.seta, DrawOp.setPoint, Form.absolute, Fsm1.poly, Fsm2.aa), (.setr, .setPoint, .relative, .poly, .rr),
           (.setv, .setPoint, .variableOrigin, .poly, .vv), (.toa, .drawTo, .absolute, .drawTo, .aa),
           (.tor, .drawTo, .relative, .drawTo, .rr), (.tov, .drawTo, .variableOrigin, .drawTo, .vv),
           (.dota, .dot, .absolute, .dot, .aa), (.dotr, .dot, .relative, .dot, .rr), (.dotv, .dot, .variableOrigin, .dot, .vv),
           (.boxa, .box, .absolute, .box, .aa), (.boxr, .box, .relative, .box, .rr),
           (.frma, .drawFrom, .absolute, .drawFrom, .aa), (.frmr, .drawFrom, .relative, .drawFrom, .rr)],
      ∃ t u p, exec (.sd i x f.1 addr) s = .next t ∧ p.words = s.pointWords f.2.2.1 ds ∧ v.drawn u f.2.1 f.2.2.1 p ∧
        t.drawRecorded f.2.2.2.1 f.2.2.2.2 s.repeatBit ∧ t = { u with rsr := t.rsr }

/-- R500 to R507, R495, R505, R496, R497, R114, R694, D31, D38 (log 32, 38): a table draw of one operation takes its point at RP, or at the word RP
points to (plus IR with X), the host's accesses coming between its words, steps RP by NF, or by one (state `v`), and sends the operation and the
form of its two start states; REPEAT STATUS holds the next states with Repeat 0. RC stays. The two state machines are the tables of R496 and
R497. -/
def Obligations.TableDrawsOfOneOperation : Prop :=
  (∀ f ∈ [(Fsm1.box, 0, DrawOp.box, Fsm1.box), (.dot, 1, .dot, .dot), (.drawTo, 2, .drawTo, .drawTo), (.poly, 3, .setPoint, .drawTo),
      (.star, 4, .setPoint, .drawFrom), (.drawFrom, 5, .drawFrom, .drawFrom), (.line, 6, .setPoint, .nline), (.nline, 7, .drawTo, .line)],
    fsm1Code f.1 = f.2.1 ∧ fsm1Of f.2.1 = f.1 ∧ fsm1Op f.1 = f.2.2.1 ∧ fsm1Next f.1 = f.2.2.2) ∧
  (∀ f ∈ [(Fsm2.av, 0, Form.absolute, Fsm2.vv), (.vv, 1, .variableOrigin, .vv), (.aa, 2, .absolute, .aa), (.ra, 3, .relative, .aa),
      (.ar, 4, .absolute, .rr), (.rr, 5, .relative, .rr), (.ax, 6, .absolute, .rx), (.rx, 7, .relative, .ax)],
    fsm2Code f.1 = f.2.1 ∧ fsm2Of f.2.1 = f.1 ∧ fsm2Form f.1 = f.2.2.1 ∧ fsm2Next f.1 = f.2.2.2) ∧
  ∀ f ∈ tableDraws, ∀ (s v : State) (f1 : Fsm1) (f2 : Fsm2) (ds : List Word), s.repeatBit = false →
    (f.2.2.2 = true → bitAt (s.reg Reg.rc) 0 = false) → ds.length = s.dim.nf.toNat →
    (if f.2.1 then ∃ q, s.memRead (s.reg Reg.rp) = .ok q ∧
        (State.gap (s.setReg Reg.rp (s.reg Reg.rp + 1))).reads (if f.2.2.1 then q + s.reg Reg.ir else q) 1 ds v
      else ∃ r : State, s.reads (s.reg Reg.rp) 1 ds r ∧ v = r.setReg Reg.rp (s.reg Reg.rp + s.dim.nf)) →
    ∃ t u p, exec (f.1 f1 f2) s = .next t ∧
      p.words = s.pointWords (fsm2Form f2) ds ∧ v.drawn u (fsm1Op f1) (fsm2Form f2) p ∧
      t.drawRecorded (fsm1Next f1) (fsm2Next f2) false ∧ t = { u with rsr := t.rsr }

/-- R499 to R501, R496, R495, R505, R511, D32 (log 17, 32, 33, 38): with RC = -n, TDR in absolute data form, with overlap and no other agent acting in
between, reads n points from RP, sends n commands with the operations of its first state machine, and ends with RC 0, RP past the table and
Repeat 0. If a word of point k cannot be read, the first k operations are done, RC and X, Y, Z, W as they left them, RP has moved past the words read,
those of point k among them, the condition is recorded, and REPEAT STATUS keeps the Repeat bit and the state of operation k. -/
def Obligations.TableDrawRepeatsItsCount : Prop :=
  ∀ (s : State) (f1 : Fsm1) (n k : Nat) (d : Nat → List Word), s.counted n → s.turns = [] → bitAt s.dir 4 = false → k ≤ n →
    (∀ j < k, (d j).length = s.dim.nf.toNat ∧
      s.wordsAt (s.reg Reg.rp + BitVec.ofNat 24 (s.dim.nf.toNat * j)) (d j)) →
    ∀ done : State → (Nat → Tuple) → Prop, (∀ t p, done t p ↔
        (∀ j < k, (p j).words = s.pointWords .absolute (d j)) ∧
        t.queue = s.queue ++ (List.range k).map (fun j => s.command (fsm1Op (fsm1Next^[j] f1)) .absolute (some (p j))) ∧
        s.holdsLastPoint t k (fun j => fsm1Op (fsm1Next^[j] f1)) p ∧
        s.keepsBeside t [Reg.rc, Reg.rp, Reg.x, Reg.y, Reg.z, Reg.w]) →
      (k = n → ∃ t p, exec (.tdr f1 .aa) s = .next t ∧ done t p ∧
        t.reg Reg.rc = 0 ∧ t.reg Reg.rp = s.reg Reg.rp + BitVec.ofNat 24 (s.dim.nf.toNat * n) ∧
        t.drawRecorded (fsm1Next^[n] f1) .aa false ∧ t = { s with regs := t.regs, queue := t.queue, rsr := t.rsr }) ∧
      (∀ (ds : List Word) (c : Cond), k < n → ds.length < s.dim.nf.toNat →
        s.wordsAt (s.reg Reg.rp + BitVec.ofNat 24 (s.dim.nf.toNat * k)) ds →
        s.memRead (s.reg Reg.rp + BitVec.ofNat 24 (s.dim.nf.toNat * k + ds.length)) = .error c →
        ∃ t p, exec (.tdr f1 .aa) s = .next t ∧ done t p ∧
          t.reg Reg.rc = s.reg Reg.rc + BitVec.ofNat 24 k ∧
          t.reg Reg.rp = s.reg Reg.rp + BitVec.ofNat 24 (s.dim.nf.toNat * k + ds.length) ∧
          t.drawRecorded (fsm1Next^[k] f1) .aa true ∧ State.abandoned { s with regs := t.regs, queue := t.queue, rsr := t.rsr } t c)

/-- R508 to R510, R425, R496, R497, R505, D31, D35, D37, D38 (log 32, 36, 38, 39): RD draws the point its X field names, or two points, the second
read after the first operation; MMD sends one command without data and MMDR, with RC = -n, with overlap and no other agent acting in
between, n of them, RC ending 0. No memory is read. -/
def Obligations.RegisterAndMatrixDraws : Prop :=
  ∀ (s : State) (f1 : Fsm1) (f2 : Fsm2), s.repeatBit = false → s.turns = [] →
    (∀ (x : XSel) (c : Reg) (double : Bool) (nw : Nat) (d : Tuple),
      (x, c, double) ∈ [(XSel.sac0, 0, false), (.sx, 8, false), (.sac2, 2, false), (.sz, 10, false), (.dac0, 0, true), (.dx, 8, true)] →
      nw = (if s.twoD then 2 else 4) → s.wordsIn c d →
      ∃ t u p, exec (.rd f1 f2 x) s = .next t ∧ p.words = s.pointWords (fsm2Form f2) d.words ∧
        s.drawn u (fsm1Op f1) (fsm2Form f2) p ∧
        (double = false → t.drawRecorded (fsm1Next f1) (fsm2Next f2) false ∧ t = { u with rsr := t.rsr }) ∧
        (double = true → ∃ v q e, u.wordsIn (c + Fin.ofNat 16 nw) e ∧
          q.words = u.pointWords (fsm2Form (fsm2Next f2)) e.words ∧
          u.drawn v (fsm1Op (fsm1Next f1)) (fsm2Form (fsm2Next f2)) q ∧
          t.drawRecorded (fsm1Next (fsm1Next f1)) (fsm2Next (fsm2Next f2)) false ∧ t = { v with rsr := t.rsr })) ∧
    (∀ i : Instr, i = .mmd f1 ∨ (i = .mmdr f1 ∧ bitAt (s.reg Reg.rc) 0 = false) →
      ∃ t q, exec i s = .next t ∧ q = { s with queue := s.queue ++ [s.command (fsm1Op f1) .absolute none] } ∧
        t.drawRecorded (fsm1Next f1) .aa false ∧ t = { (if bitAt s.dir 4 then q.settle else q) with rsr := t.rsr }) ∧
    (∀ n : Nat, s.counted n → bitAt s.dir 4 = false →
      ∃ t, exec (.mmdr f1) s = .next t ∧
        t.queue = s.queue ++ (List.range n).map (fun k => s.command (fsm1Op (fsm1Next^[k] f1)) .absolute none) ∧
        t.reg Reg.rc = 0 ∧ s.keepsBeside t [Reg.rc] ∧ t.drawRecorded (fsm1Next^[n] f1) .aa false ∧
        t = { s with regs := t.regs, queue := t.queue, rsr := t.rsr })

/-! ### The units of the pipeline -/

/-- R531, R535, R537, R538, R546, D20, D39 (log 21, 40, 46, 50): what a drawing command with data does. With MMA = 0 its point goes on as it is; with
MMA = 1 it is multiplied by matrix A, in 2D by rows 0 and 1 with row 2 added, in 3D by all four rows, and goes to memory under MOM and to the
Clipping Divider under MOC, to both or to neither (in curve mode the product is not described: some point of the same size). With CDA = 0 a
drawing command has no effect in the Clipping Divider. -/
def Obligations.MatrixMultiplierTransformsAndRoutes : Prop :=
  ∀ (s t : State) (op : DrawOp) (form : Form) (p : Tuple) (mma cda nov : Bool) (dim : Dim),
    t = s.apply { op := op, form := form, data := some p, mma := mma, cda := cda, nov := nov, dim := dim } →
    (mma = false → t = s.cdDraw cda op p) ∧ (∀ q : Tuple, s.cdDraw false op q = s) ∧ (mma = false → cda = false → t = s) ∧
    (mma = true → ∃ (q : Tuple) (r : State), q.is2d = p.is2d ∧
      (s.mdir.curve = false → ∀ (k : Nat) (h : k < q.words.length), q.words[k] = accumulate s.params.arith
        (p.words.mapIdx (fun i d => fmul s.params.arith d (s.mmAt (Fin.ofNat 16 i) (Fin.ofNat 4 k))) ++
          (if p.is2d then [s.mmAt 2 (Fin.ofNat 4 k)] else []))) ∧
      r = { s with regs := r.regs, mem := r.mem, icr := r.icr, protFF := r.protFF, raised := r.raised, turns := r.turns, hostSeen := r.hostSeen,
                   freeIx := r.freeIx } ∧
      (s.mdir.mom = false → r = { s with freeIx := r.freeIx }) ∧
      (s.mdir.mom = true → s.params.arith = .reference → r = { s.outputWords q.words with freeIx := r.freeIx }) ∧
      t = if s.mdir.moc then r.cdDraw cda op q else r)

/-- R540 to R543, R546, D44 (log 21, 45, 46, 50): what a dataless drawing command does. With MMA = 0, or not in curve mode, nothing. In 2D a set point
gives [x, y] + [tx, ty], and draw to, draw from and dot first replace [x, y] by [x, y][R]. In 3D every operation but box adds Q times the row below
to rows 0, 1 and 2 and gives the new row 0. The point is routed by MOM and MOC. A box in 3D, NEWCRV, adds QB to A, QC to B and QD to C
with the old B, C and D, and sends nothing; in 2D it is not described, and the matrices are free. -/
def Obligations.CurvesIterateTheMatrices : Prop :=
  ∀ (s t : State) (op : DrawOp) (form : Form) (mma cda nov : Bool) (dim : Dim) (f : Word → Word → Word) (acc : List Word → Word),
    t = s.apply { op := op, form := form, data := none, mma := mma, cda := cda, nov := nov, dim := dim } →
    f = fmul s.params.arith → acc = accumulate s.params.arith →
    (mma = false ∨ s.mdir.curve = false → t = s) ∧
    (mma = true → s.mdir.curve = true → op = .box →
      (dim.is2d = true → t = { s with mm := t.mm, freeIx := t.freeIx }) ∧
      (dim.is2d = false → t = { s with mm := t.mm } ∧
        ∀ (a : DevAddr) (j : Fin 4),
          t.mmAt a j = if a.val < 12 then acc [s.mmAt a j, f s.mdir.q (s.mmAt (a + 4) j)] else s.mmAt a j)) ∧
    (mma = true → s.mdir.curve = true → op ≠ .box → ∃ (v r : State) (q : Tuple), v = { s with mm := v.mm } ∧
      (dim.is2d = true → ∃ n : Fin 4 → Word,
        (∀ j, n j = if op = .setPoint then s.mmAt 3 j else acc [f (s.mmAt 3 0) (s.mmAt 0 j), f (s.mmAt 3 1) (s.mmAt 1 j)]) ∧
        (∀ (a : DevAddr) (j : Fin 4), v.mmAt a j = if a = 3 ∧ j.val < 2 then n j else s.mmAt a j) ∧
        q = .two (acc [n 0, s.mmAt 2 0]) (acc [n 1, s.mmAt 2 1])) ∧
      (dim.is2d = false →
        (∀ (a : DevAddr) (j : Fin 4),
          v.mmAt a j = if a.val < 3 then acc [s.mmAt a j, f s.mdir.q (s.mmAt (a + 1) j)] else s.mmAt a j) ∧
        q = .four (v.mmAt 0 0) (v.mmAt 0 1) (v.mmAt 0 2) (v.mmAt 0 3)) ∧
      r = { v with regs := r.regs, mem := r.mem, icr := r.icr, protFF := r.protFF, raised := r.raised, turns := r.turns, hostSeen := r.hostSeen,
                   freeIx := r.freeIx } ∧
      (s.mdir.mom = false → r = v) ∧
      (s.mdir.mom = true → s.params.arith = .reference → r = { v.outputWords q.words with freeIx := r.freeIx }) ∧
      t = if s.mdir.moc then r.cdDraw cda op q else r)

/-- R534, R536 (log 21): the product of two fractions is within one unit of the last place of the exact product, under either arithmetic, and
the product when it is representable, but that -1 times -1 is -1. -/
def Obligations.FractionalProductsRound : Prop :=
  ∀ (m : Arith) (a b : Word),
    fmul m 0x800000 0x800000 = 0x800000 ∧
    (¬ (a = 0x800000 ∧ b = 0x800000) →
      |(fmul m a b).toInt * 8388608 - a.toInt * b.toInt| < 8388608 ∧
      (a.toInt * b.toInt % 8388608 = 0 → (fmul m a b).toInt * 8388608 = a.toInt * b.toInt))

/-- R553, R554 (the clipping itself; log 22): the part of a segment that `clipSpan` gives is exactly the set of points at which every bounding
quantity is not negative. -/
def Obligations.ClippingKeepsExactlyTheInside : Prop :=
  ∀ (fs : List (Int × Int)) (n d : Int), 0 ≤ n → n ≤ d → 0 < d →
    ((∀ f ∈ fs, notNegativeAt n d f) ↔
      ∃ v, clipSpan fs = some v ∧ 0 < v.ld ∧ 0 < v.hd ∧ v.ln * d ≤ n * v.ld ∧ n * v.hd ≤ v.hn * d)

/-- R552, R566, R570, R575, R553, R554, R557, R550, R563, R582, D43, D40, D21 (log 44, 41, 22, 47): a drawing command that reaches the active Clipping
Divider moves SAVE to the new point for set point, draw to and dot only, and sets HIT when some point of the line from SAVE to the new point, of
length zero for a dot, lies in the window, edges included (2D), or in the pyramid of vision (3D; under CURVE also in the negative one), and for
nothing else; a graph-mode coordinate is SAVE + INSTLB, brought to 23 bits (log 41, 44). Beside SAVE a line changes the counts, a box the window and
the viewport. Nothing else of the machine changes but what the output to memory does, the commands sent to the scope, and ICR bit 6, the scope
violation, which is raised when a visible line is sent to a scope without permit: that the violation is tested then is R563's own choice
(log 65). -/
def Obligations.DrawingMovesSaveAndSetsHit : Prop :=
  ∀ (s t : State) (op : DrawOp) (form : Form) (q : Tuple) (nov : Bool) (dim : Dim) (a b : CdPoint),
    t = s.apply { op := op, form := form, data := some q, mma := false, cda := true, nov := nov, dim := dim } →
    b = s.cd.newPoint q → a = (if op = .dot then b else s.cd.oldPoint q.is2d) →
    ∀ seen : Prop, (seen ↔ op ≠ .setPoint ∧ op ≠ .box ∧
        (if q.is2d then meetsWindow s.cd.wind a.x a.y b.x b.y
          else meetsPyramid 1 a b ∨ (s.cd.cdir.curve = true ∧ meetsPyramid (-1) a b))) →
      t.cd = { s.cd with save := t.cd.save, hitang := t.cd.hitang, wind := t.cd.wind, view := t.cd.view } ∧
      t.cd.save = (if op = .drawFrom ∨ op = .box then s.cd.save
        else if q.is2d then { s.cd.save with c0 := BitVec.ofInt 24 b.x, c1 := BitVec.ofInt 24 b.y }
        else ⟨BitVec.ofInt 24 b.x, BitVec.ofInt 24 b.y, BitVec.ofInt 24 b.zx, BitVec.ofInt 24 b.zy⟩) ∧
      (op = .setPoint ∨ op = .box → t.cd.hitang = s.cd.hitang) ∧
      (op ≠ .box → t.cd.wind = s.cd.wind ∧ t.cd.view = s.cd.view) ∧
      (bitAt t.dir 21 = true ↔ bitAt s.dir 21 = true ∨ seen) ∧ (∀ k < 24, k ≠ 21 → bitAt t.dir k = bitAt s.dir k) ∧
      t = { s with cd := t.cd, dir := t.dir, scope := t.scope, freeIx := t.freeIx, icr := t.icr, regs := t.regs, mem := t.mem,
                   protFF := t.protFF, raised := t.raised, turns := t.turns, hostSeen := t.hostSeen } ∧
      ((s.cd.cdir.stom = false ∧ s.cd.cdir.ptom = false ∧ s.cd.cdir.ntom = false) ∨ op = .box →
        t = { s with cd := t.cd, dir := t.dir, scope := t.scope, freeIx := t.freeIx, icr := t.icr, raised := t.raised } ∧
        (∀ k < 24, bitAt t.icr k = true ↔ bitAt s.icr k = true ∨
          (k = 6 ∧ seen ∧ s.cd.cdir.stos = true ∧ s.cd.violation = true)) ∧
        (t.raised = true ↔ s.raised = true ∨ (seen ∧ s.cd.cdir.stos = true ∧ s.cd.violation = true)))

/-- R552, R553, R560, R580, D43 (log 22, 44, 60): a 2D draw-to inside the window, output to the scope alone and no scope forbidden, moves the beam to the map
of SAVE unless it is there, and draws to the map of the new point: the viewport's edge plus the distance from the window's edge,
scaled and rounded down. -/
def Obligations.VisibleLinesReachTheScope : Prop :=
  ∀ (s t : State) (form : Form) (nov : Bool) (dim : Dim) (v0 v1 : Word) (a0 a1 b0 b1 : Int), s.params.arith = .reference →
    t = s.apply { op := .drawTo, form := form, data := some (.two v0 v1), mma := false, cda := true, nov := nov, dim := dim } →
    s.cd.cdir = { s.cd.cdir with stos := true, stom := false, ztos := false, ptom := false, ntom := false, mef := false,
                                 selfX := false, selfY := false } →
    s.cd.violation = false →
    a0 = cdInt s.cd.save.c0 → a1 = cdInt s.cd.save.c1 → b0 = cdInt v0 → b1 = cdInt v1 →
    (∀ x ∈ [a0, b0], s.cd.wind.c0.toInt ≤ x ∧ x ≤ s.cd.wind.c2.toInt) →
    (∀ y ∈ [a1, b1], s.cd.wind.c1.toInt ≤ y ∧ y ≤ s.cd.wind.c3.toInt) →
    s.cd.wind.c0.toInt < s.cd.wind.c2.toInt → s.cd.wind.c1.toInt < s.cd.wind.c3.toInt →
    ∀ fx fy : Int → Word,
      (∀ x, fx x = BitVec.ofInt 24 (s.cd.view.c0.toInt +
        ((x - s.cd.wind.c0.toInt) * (s.cd.view.c2.toInt - s.cd.view.c0.toInt)) / (s.cd.wind.c2.toInt - s.cd.wind.c0.toInt))) →
      (∀ y, fy y = BitVec.ofInt 24 (s.cd.view.c1.toInt +
        ((y - s.cd.wind.c1.toInt) * (s.cd.view.c3.toInt - s.cd.view.c1.toInt)) / (s.cd.wind.c3.toInt - s.cd.wind.c1.toInt))) →
      ∃ e, t.scope = { kind := .draw, x := fx b0, y := fy b1, z := s.cd.intensity, select := s.cd.select, permit := s.cd.permit,
                         dashed := s.cd.cdir.dashed } :: e ∧
        e = (if s.beamAt (fx a0) (fy a1) then s.scope
             else { kind := .move, x := fx a0, y := fy a1, z := s.cd.intensity, select := s.cd.select, permit := s.cd.permit,
                    dashed := s.cd.cdir.dashed } :: s.scope)

/-- R553 to R557, R563, R580 to R582, R560, D45 (log 22, 44, 46, 50, 60): under the reference arithmetic, a line that lies wholly in the window, or in the
pyramid of vision, and a set point wherever it is, send to memory, in this order, under STOM the scaled point X, Y and in 3D Z, under PTOM the page
point in the same form, under NTOM the two words of NAME. The point is the line's second end, for a draw-from the end at SAVE: the
model's choice (log 46). Under STOS a line sends the map of its ends to the scope, a set point moves the beam. The map is the viewport's edge plus the distance from the window's edge, scaled (2D), or the viewport's middle plus
X / Zx and Y / Zy halves of it (3D), rounded down. A line sent under STOS to a scope without permit raises ICR bit 6, the scope violation: that it is
tested then is R563's own choice (log 65). In Minimum Effort Mode the page point is some point of the line, each coordinate rounded down. Nothing
else of the machine changes but the registers of the Clipping Divider, HIT and the commands to the scope, of which DrawingMovesSaveAndSetsHit says
more. -/
def Obligations.OutputGroupsAndPerspective : Prop :=
  ∀ (s t : State) (op : DrawOp) (form : Form) (q : Tuple) (nov : Bool) (dim : Dim) (d : Bool) (e0 e1 : CdPoint), s.params.arith = .reference →
    t = s.apply { op := op, form := form, data := some q, mma := false, cda := true, nov := nov, dim := dim } → op ≠ .box → d = q.is2d →
    e0 = (if op = .drawTo then s.cd.oldPoint d else s.cd.newPoint q) →
    e1 = (if op = .drawFrom then s.cd.oldPoint d else s.cd.newPoint q) →
    s.cd.canMap d e0 → s.cd.canMap d e1 → (op ≠ .setPoint → s.cd.inView d e0 ∧ s.cd.inView d e1) →
    (∀ (m0 m1 : Word × Word) (ws : List Word), (s.cd.cdir.mef = false ∨ op = .setPoint) → m0 = s.cd.mapped d e0 → m1 = s.cd.mapped d e1 →
      ws = (if s.cd.cdir.stom then groupOf d m1.1 m1.2 e1 else []) ++
        (if s.cd.cdir.ptom then groupOf d (BitVec.ofInt 24 e1.x) (BitVec.ofInt 24 e1.y) e1 else []) ++
        (if s.cd.cdir.ntom then [s.cd.name.1, s.cd.name.2] else []) →
      t = { s.outputWords ws with cd := t.cd, dir := t.dir, scope := t.scope, freeIx := t.freeIx, icr := t.icr, raised := t.raised } ∧
      (∀ k < 24, bitAt t.icr k = true ↔ bitAt (s.outputWords ws).icr k = true ∨
        (k = 6 ∧ op ≠ .setPoint ∧ s.cd.cdir.stos = true ∧ s.cd.violation = true)) ∧
      (t.raised = true ↔ (s.outputWords ws).raised = true ∨ (op ≠ .setPoint ∧ s.cd.cdir.stos = true ∧ s.cd.violation = true)) ∧
      (op ≠ .setPoint → s.cd.cdir.stos = false → t.scope = s.scope) ∧
      (d = false ∨ s.cd.cdir.ztos = false →
        (op = .setPoint → t.scope = s.cd.command .move (BitVec.ofInt 24 e1.x) (BitVec.ofInt 24 e1.y) e1 :: s.scope) ∧
        (op ≠ .setPoint → s.cd.cdir.stos = true →
          t.scope = s.cd.command .draw m1.1 m1.2 e1 ::
            (if s.beamAt m0.1 m0.2 then s.scope else s.cd.command .move m0.1 m0.2 e0 :: s.scope)))) ∧
    (op ≠ .setPoint → s.cd.cdir.mef = true → s.cd.cdir.stom = false → s.cd.cdir.ptom = true → s.cd.cdir.ntom = false →
      ∃ (n m : Int) (p : CdPoint) (ws : List Word), 0 ≤ n ∧ n ≤ m ∧ 0 < m ∧
        p = ⟨e0.x + Int.fdiv ((e1.x - e0.x) * n) m, e0.y + Int.fdiv ((e1.y - e0.y) * n) m, e0.zx + Int.fdiv ((e1.zx - e0.zx) * n) m, 0⟩ ∧
        ws = groupOf d (BitVec.ofInt 24 p.x) (BitVec.ofInt 24 p.y) p ∧ t.mem = (s.outputWords ws).mem ∧ t.regs = (s.outputWords ws).regs)

/-- R556, R560, D21, G1 (log 22, 44, 50): a box sets a new window and a new viewport and nothing else. In 2D, under the reference arithmetic, with the
master from SAVE to the new point and the instance clipped to the window: the viewport is the map of the clipped instance under the old window and
viewport, the window its inverse image in the master's space, rounded down; if nothing of the instance is left the window is backward, in X or in Y,
so that nothing is displayed; in which is open. In 3D both are free. -/
def Obligations.BoxSetsWindowAndViewport : Prop :=
  ∀ (s t : State) (form : Form) (q : Tuple) (nov : Bool) (dim : Dim),
    t = s.apply { op := .box, form := form, data := some q, mma := false, cda := true, nov := nov, dim := dim } →
    t = { s with cd := { s.cd with wind := t.cd.wind, view := t.cd.view }, freeIx := t.freeIx } ∧
    (q.is2d = true → s.params.arith = .reference →
      ∀ (m0 m1 : CdPoint) (i w v : Quad) (cl cb cr ct : Int), m0 = s.cd.oldPoint true → m1 = s.cd.newPoint q →
        i = s.cd.inst → w = s.cd.wind → v = s.cd.view →
        cl = max i.c0.toInt w.c0.toInt → cb = max i.c1.toInt w.c1.toInt → cr = min i.c2.toInt w.c2.toInt → ct = min i.c3.toInt w.c3.toInt →
        (w.c0 ≠ w.c2 →
          t.cd.view.c0 = BitVec.ofInt 24 (v.c0.toInt + Int.fdiv ((cl - w.c0.toInt) * (v.c2.toInt - v.c0.toInt)) (w.c2.toInt - w.c0.toInt)) ∧
          t.cd.view.c2 = BitVec.ofInt 24 (v.c0.toInt + Int.fdiv ((cr - w.c0.toInt) * (v.c2.toInt - v.c0.toInt)) (w.c2.toInt - w.c0.toInt))) ∧
        (w.c1 ≠ w.c3 →
          t.cd.view.c1 = BitVec.ofInt 24 (v.c1.toInt + Int.fdiv ((cb - w.c1.toInt) * (v.c3.toInt - v.c1.toInt)) (w.c3.toInt - w.c1.toInt)) ∧
          t.cd.view.c3 = BitVec.ofInt 24 (v.c1.toInt + Int.fdiv ((ct - w.c1.toInt) * (v.c3.toInt - v.c1.toInt)) (w.c3.toInt - w.c1.toInt))) ∧
        (cl > cr ∨ cb > ct → t.cd.wind.c0.toInt > t.cd.wind.c2.toInt ∨ t.cd.wind.c1.toInt > t.cd.wind.c3.toInt) ∧
        (cl ≤ cr → cb ≤ ct →
          (i.c0 ≠ i.c2 → m0.x ≠ m1.x →
            t.cd.wind.c0 = BitVec.ofInt 24 (m0.x + Int.fdiv ((cl - i.c0.toInt) * (m1.x - m0.x)) (i.c2.toInt - i.c0.toInt)) ∧
            t.cd.wind.c2 = BitVec.ofInt 24 (m0.x + Int.fdiv ((cr - i.c0.toInt) * (m1.x - m0.x)) (i.c2.toInt - i.c0.toInt))) ∧
          (i.c1 ≠ i.c3 → m0.y ≠ m1.y →
            t.cd.wind.c1 = BitVec.ofInt 24 (m0.y + Int.fdiv ((cb - i.c1.toInt) * (m1.y - m0.y)) (i.c3.toInt - i.c1.toInt)) ∧
            t.cd.wind.c3 = BitVec.ofInt 24 (m0.y + Int.fdiv ((ct - i.c1.toInt) * (m1.y - m0.y)) (i.c3.toInt - i.c1.toInt)))))
end

