-- ==== Sys2Proof/Laws/Bits.lean ====
section
/-!
SUPPORT. Bits and fields of words after one of them is replaced.
-/

namespace Sys2Proof

/-- A bit of the word with 1 in bit `i` only. -/
theorem bitAt_bitMask (i k : Nat) (hk : k < 24) : bitAt (bitMask i) k = decide (k = i) := by
  unfold bitAt bitMask
  split
  · rw [BitVec.getMsbD_shiftLeft, BitVec.getMsbD_one]
    by_cases h : k = i
    · subst h; simp; omega
    · have : ¬ (k + (23 - i) = 23) := by omega
      simp [h, this]
  · simp [show k ≠ i by omega]

/-- There is no bit 24 or above. -/
theorem bitAt_of_ge (w : Word) {k : Nat} (h : 24 ≤ k) : bitAt w k = false := BitVec.getMsbD_of_ge w k h

/-- A bit after bit `i` was replaced. -/
@[simp] theorem bitAt_setBitAt (w : Word) (i k : Nat) (b : Bool) :
    bitAt (setBitAt w i b) k = if k = i ∧ i < 24 then b else bitAt w k := by
  by_cases hk : k < 24
  · have hm := bitAt_bitMask i k hk
    have hg : bitAt w k = w.getMsbD k := rfl
    unfold bitAt at hm ⊢
    unfold setBitAt
    cases b
    · simp only [Bool.false_eq_true, if_false, BitVec.getMsbD_and, BitVec.getMsbD_not, hm]
      by_cases h : k = i
      · subst h; simp [hk]
      · simp [h, hk]
    · simp only [if_true, BitVec.getMsbD_or, hm]
      by_cases h : k = i
      · subst h; simp [hk]
      · simp [h]
  · rw [bitAt_of_ge _ (by omega), bitAt_of_ge _ (by omega)]
    have : ¬ (k = i ∧ i < 24) := by omega
    simp [this]

/-- A bit as a bit of the number. -/
theorem bitAt_eq_testBit (w : Word) {k : Nat} (h : k < 24) : bitAt w k = w.toNat.testBit (23 - k) := by
  unfold bitAt
  rw [BitVec.getMsbD, BitVec.getLsbD]
  simp [h]

/-- A bit of a field of a word. -/
theorem testBit_fieldAt (w : Word) {i j : Nat} (n : Nat) (hj : j < 24) :
    (fieldAt w i j).testBit n = (decide (n < j + 1 - i) && bitAt w (j - n)) := by
  unfold fieldAt
  rw [Nat.testBit_mod_two_pow, Nat.testBit_div_two_pow]
  by_cases h : n < j + 1 - i
  · rw [bitAt_eq_testBit _ (by omega)]
    congr 2
    omega
  · simp [h]

/-- Words that agree on the bits of a field agree on the field. -/
theorem fieldAt_congr {v w : Word} {i j : Nat} (hj : j < 24) (h : ∀ k, i ≤ k → k ≤ j → bitAt v k = bitAt w k) :
    fieldAt v i j = fieldAt w i j := by
  apply Nat.eq_of_testBit_eq
  intro n
  rw [testBit_fieldAt _ _ hj, testBit_fieldAt _ _ hj]
  by_cases hn : n < j + 1 - i
  · rw [h (j - n) (by omega) (by omega)]
  · simp [hn]

/-- A bit of the word with 1 in bits `i` to `j`. -/
theorem bitAt_fieldMask {i j k : Nat} (hj : j < 24) (hk : k < 24) : bitAt (fieldMask i j) k = decide (i ≤ k ∧ k ≤ j) := by
  unfold bitAt fieldMask
  rw [BitVec.getMsbD_and, BitVec.getMsbD_ushiftRight, BitVec.getMsbD_shiftLeft]
  simp only [BitVec.getMsbD_allOnes]
  rw [Bool.eq_iff_iff]
  simp
  omega

/-- A bit after the field `i` to `j` was replaced. -/
theorem bitAt_setFieldAt (w : Word) {i j k : Nat} (v : Nat) (hj : j < 24) (hk : k < 24) :
    bitAt (setFieldAt w i j v) k = if i ≤ k ∧ k ≤ j then v.testBit (j - k) else bitAt w k := by
  have hm := bitAt_fieldMask (i := i) hj hk
  unfold setFieldAt
  unfold bitAt at hm ⊢
  rw [BitVec.getMsbD_or, BitVec.getMsbD_and, BitVec.getMsbD_and, BitVec.getMsbD_not, BitVec.getMsbD_shiftLeft, hm]
  by_cases h : i ≤ k ∧ k ≤ j
  · have e : 24 - 1 - (k + (23 - j)) = j - k := by omega
    simp only [h, BitVec.getMsbD, BitVec.getLsbD_ofNat, e]
    have e1 : k + (23 - j) < 24 := by omega
    have e2 : j - k < 24 := by omega
    simp [hk, e1, e2]
  · simp [h, hk]

/-- The field just replaced. -/
theorem fieldAt_setFieldAt_self (w : Word) {i j : Nat} (v : Nat) (hj : j < 24) :
    fieldAt (setFieldAt w i j v) i j = v % 2 ^ (j + 1 - i) := by
  apply Nat.eq_of_testBit_eq
  intro n
  rw [testBit_fieldAt _ _ hj, Nat.testBit_mod_two_pow]
  by_cases hn : n < j + 1 - i
  · rw [bitAt_setFieldAt _ _ hj (by omega)]
    rw [if_pos (by omega), show j - (j - n) = n by omega]
  · simp [hn]

/-- A field after another one, apart from it, was replaced. -/
theorem fieldAt_setFieldAt_of_disjoint (w : Word) {i j k l : Nat} (v : Nat) (hj : j < 24) (hl : l < 24) (h : l < i ∨ j < k) :
    fieldAt (setFieldAt w i j v) k l = fieldAt w k l :=
  fieldAt_congr hl fun m _ _ => by rw [bitAt_setFieldAt _ _ hj (by omega), if_neg (by omega)]

/-- A bit after a field apart from it was replaced. -/
theorem bitAt_setFieldAt_of_disjoint (w : Word) {i j k : Nat} (v : Nat) (hj : j < 24) (hk : k < 24) (h : k < i ∨ j < k) :
    bitAt (setFieldAt w i j v) k = bitAt w k := by
  rw [bitAt_setFieldAt _ _ hj hk, if_neg (by omega)]

/-- A field after a bit apart from it was replaced. -/
theorem fieldAt_setBitAt_of_disjoint (w : Word) {i k l : Nat} (b : Bool) (hl : l < 24) (h : i < k ∨ l < i) :
    fieldAt (setBitAt w i b) k l = fieldAt w k l :=
  fieldAt_congr hl fun m _ _ => by rw [bitAt_setBitAt, if_neg (by omega)]

end Sys2Proof
end

