-- ==== Sys2Proof/Laws/Elementary.lean ====
section
/-!
SUPPORT. What the instructions can do, said once: every operation of the model is a composition of elementary updates, so a predicate
that survives each elementary update survives the operation. Invariants and "nothing else changes" claims over all instructions
are instances.
-/

namespace Sys2Proof.Machine

/-- `P` survives the elementary updates that instructions and the pipeline make in any mode: registers, PC, memory words, recorded
conditions, HIT and AIC, REPEAT STATUS, and the pipeline's own state. In user mode the scope permits stay (R563). -/
structure Elementary (P : State → Prop) : Prop where
  regs : ∀ (s : State) v, P s → P { s with regs := v }
  pc : ∀ (s : State) v, P s → P { s with pc := v }
  mem : ∀ (s : State) p v, P s → P { s with mem := Memory.writeWord s.mem p v }
  cond : ∀ (s : State) c, P s → P (s.record c)
  raised : ∀ (s : State), P s → P { s with raised := true }
  hit : ∀ (s : State), P s → P { s with dir := setBitAt s.dir 21 true }
  aic : ∀ (s : State) b, P s → P { s with dir := setBitAt s.dir 22 b }
  rsr : ∀ (s : State) v, P s → P { s with rsr := v }
  mm : ∀ (s : State) v, P s → P { s with mm := v }
  mdir : ∀ (s : State) v, P s → P { s with mdir := v }
  cd : ∀ (s : State) c, (s.mode = .user → c.permit = s.cd.permit) → P s → P { s with cd := c }
  scope : ∀ (s : State) v, P s → P { s with scope := v }
  queue : ∀ (s : State) v, P s → P { s with queue := v }
  turns : ∀ (s : State) es rest, s.turns = es :: rest → P s → P { s with turns := rest }
  hostSeen : ∀ (s : State) v, P s → P { s with hostSeen := v }
  freeIx : ∀ (s : State) v, P s → P { s with freeIx := v }

namespace Elementary

variable {P : State → Prop} (hP : Elementary P) {s : State}

omit hP in
/-- Both branches of a choice. -/
theorem choice {c : Prop} [Decidable c] {a b : State} (ha : P a) (hb : P b) : P (if c then a else b) := by
  split
  exacts [ha, hb]

include hP

/-! ### Ops -/

theorem setReg (h : P s) (r v) : P (s.setReg r v) := hP.regs _ _ h
theorem setPc (h : P s) (v) : P (s.setPc v) := hP.pc _ _ h
theorem skip (h : P s) : P s.skip := hP.pc _ _ h
theorem skipIf (h : P s) (c) : P (s.skipIf c) := by cases c; exacts [h, hP.skip h]
theorem raise (h : P s) (c) : P (s.raise c) := hP.raised _ (hP.cond _ _ h)
theorem raiseIf (h : P s) (b c) : P (s.raiseIf b c) := by cases b; exacts [h, hP.raise h c]
theorem useFree (h : P s) (n) : P (s.useFree n) := hP.freeIx _ _ h

theorem memWrite (h : P s) {a v t} (ht : s.memWrite a v = .ok t) : P t := by
  unfold State.memWrite at ht
  split at ht
  · cases ht
  · cases ht; exact hP.mem _ _ _ h

theorem withRead (h : P s) (a) (k : Word → State) (hk : ∀ v, P (k v)) : P (s.withRead a k) := by
  unfold State.withRead
  split
  · exact hk _
  · exact hP.raise h _

theorem withWrite (h : P s) (a v) (k : State → State) (hk : ∀ t, P t → P (k t)) : P (s.withWrite a v k) := by
  unfold State.withWrite
  split
  · next ht => exact hk _ (hP.memWrite h ht)
  · exact hP.raise h _

/-! ### The other agents -/

theorem hostRead (h : P s) (a) : P (s.hostRead a) := choice (hP.hostSeen _ _ h) h
theorem hostWrite (h : P s) (a v) : P (s.hostWrite a v) := choice (hP.mem _ _ _ h) h

theorem hostAccess (h : P s) (e) : P (s.hostAccess e) := by
  cases e
  case hostRead => exact hP.hostRead h _
  case hostWrite => exact hP.hostWrite h _ _
  all_goals exact h

theorem popTurn (h : P s) {act : State → AgentEvent → State} (ha : ∀ t e, P t → P (act t e)) : P (s.popTurn act) := by
  unfold State.popTurn
  split
  · exact h
  · next es rest heq =>
    have fold : ∀ (l : List AgentEvent) (t : State), P t → P (l.foldl act t) := by
      intro l
      induction l with
      | nil => exact fun _ ht => ht
      | cons e l ih => exact fun t ht => ih _ (ha t e ht)
    exact fold es _ (hP.turns s es rest heq h)

theorem gap (h : P s) : P s.gap := hP.popTurn h fun _ e ht => hP.hostAccess ht e
theorem afterEA (h : P s) (i) : P (s.afterEA i) := choice (hP.gap h) h

/-! ### Operands, and words of pipeline output -/

theorem withEA (h : P s) (i x addr) (k : State → Word → State) (hk : ∀ t e, P t → P (k t e)) : P (s.withEA i x addr k) := by
  unfold State.withEA
  split
  · exact hk _ _ (hP.afterEA h i)
  · exact hP.raise h _

theorem outputWord (h : P s) (v) : P (s.outputWord v) := by
  unfold State.outputWord
  split
  · exact h
  · have h1 : P (match s.memWrite (s.reg Reg.wp) v with | .ok t => t | .error c => s.raise c) := by
      split
      · next ht => exact hP.memWrite h ht
      · exact hP.raise h _
    exact choice (hP.raise (hP.setReg (hP.setReg h1 _ _) _ _) _) (hP.setReg (hP.setReg h1 _ _) _ _)

theorem outputWords : ∀ (ws) {s : State}, P s → P (s.outputWords ws)
  | [], _, h => h
  | v :: ws, _, h => outputWords ws (hP.gap (hP.outputWord h v))

theorem pushPc (h : P s) (k : State → State) (hk : ∀ t, P t → P (k t)) : P (s.pushPc k) :=
  hP.withWrite h _ _ _ fun _ ht => hk _ (hP.setReg (hP.setReg ht _ _) _ _)

/-! ### Stack, arithmetic, unary, shifts -/

theorem pushPlain (h : P s) (r1 r2) : P (s.pushPlain r1 r2) := hP.withWrite h _ _ _ fun _ ht => ht
theorem pushBefore (h : P s) (r1 r2 d) : P (s.pushBefore r1 r2 d) := hP.withWrite h _ _ _ fun _ ht => hP.setReg ht _ _
theorem pushAfter (h : P s) (r1 r2 d) : P (s.pushAfter r1 r2 d) := hP.withWrite h _ _ _ fun _ ht => hP.setReg ht _ _
theorem popPlain (h : P s) (r1 r2) : P (s.popPlain r1 r2) := hP.withRead h _ _ fun _ => hP.setReg h _ _
theorem popBefore (h : P s) (r1 r2 d) : P (s.popBefore r1 r2 d) :=
  hP.withRead h _ _ fun _ => hP.setReg (hP.setReg h _ _) _ _
theorem popAfter (h : P s) (r1 r2 d) : P (s.popAfter r1 r2 d) :=
  hP.withRead h _ _ fun _ => hP.setReg (hP.setReg h _ _) _ _
theorem addTo (h : P s) (r b k) : P (s.addTo r b k) := hP.raiseIf (hP.skipIf (hP.setReg h _ _) _) _ _
theorem subFrom (h : P s) (r b k) : P (s.subFrom r b k) := hP.raiseIf (hP.skipIf (hP.setReg h _ _) _) _ _
theorem depositSkipZero (h : P s) (r v) : P (s.depositSkipZero r v) := hP.skipIf (hP.setReg h _ _) _
theorem unary (h : P s) (op k r) : P (s.unary op k r) := hP.raiseIf (hP.skipIf (hP.setReg h _ _) _) _ _
theorem compare (h : P s) (c) : P (s.compare c) := hP.skipIf h _
theorem shiftReg (h : P s) (r f) : P (s.shiftReg r f) := hP.setReg h _ _
theorem setPair (h : P s) (r v) : P (s.setPair r v) := hP.setReg (hP.setReg h _ _) _ _
theorem leftShift (h : P s) (r b) : P (s.leftShift r b) := hP.raiseIf (hP.setReg h _ _) _ _
theorem leftShiftPair (h : P s) (r b) : P (s.leftShiftPair r b) := hP.raiseIf (hP.setPair h _ _) _ _

theorem bitOp (h : P s) (r b want put) : P (s.bitOp r b want put) := by
  unfold State.bitOp
  cases put <;> cases want
  · exact h
  · exact hP.skipIf h _
  · exact hP.setReg h _ _
  · exact hP.skipIf (hP.setReg h _ _) _

theorem illegalIot (h : ∀ v, P { s with iodce := v }) (dev) : P (s.illegalIot dev) := hP.raise (h _) _

/-! ### The Matrix Multiplier -/

theorem setMm (h : P s) (a c v) : P (s.setMm a c v) := hP.mm _ _ h

theorem setMmRow (h : P s) (a d) : P (s.setMmRow a d) := by
  cases d with
  | two => exact hP.setMm (hP.setMm h _ _ _) _ _ _
  | four => exact hP.setMm (hP.setMm (hP.setMm (hP.setMm h _ _ _) _ _ _) _ _ _) _ _ _

theorem loadMdir (h : P s) (d0 d1) : P (s.loadMdir d0 d1) := hP.mdir _ _ h

theorem mmRoute (h : P s) (q) : P (s.mmRoute q).1 := by
  unfold State.mmRoute
  dsimp only
  split
  · exact hP.useFree (hP.outputWords _ h) _
  · exact h

theorem mmDrawData (h : P s) (m p) : P (s.mmDrawData m p).1 := by
  unfold State.mmDrawData
  split
  · split
    · exact hP.mmRoute (hP.useFree h _) _
    · split
      · exact hP.mmRoute h _
      · exact hP.mmRoute h _
  · exact h

theorem curve2d (h : P s) (op) : P (s.curve2d op).1 := by
  cases op with
  | setPoint => exact h
  | drawTo => exact hP.setMmRow h 3 (.two _ _)
  | drawFrom => exact hP.setMmRow h 3 (.two _ _)
  | dot => exact hP.setMmRow h 3 (.two _ _)
  | box => exact hP.setMmRow h 3 (.two _ _)

theorem mmStepRow (h : P s) (a b) : P (s.mmStepRow a b) :=
  hP.setMm (hP.setMm (hP.setMm (hP.setMm h _ _ _) _ _ _) _ _ _) _ _ _

theorem curve3d (h : P s) : P s.curve3d.1 := hP.mmStepRow (hP.mmStepRow (hP.mmStepRow h _ _) _ _) _ _

theorem newCurve (h : P s) : P s.newCurve := by
  have pass : ∀ {t : State}, P t → ∀ m, P ([0, 1, 2, 3].foldl (fun u i => u.mmStepRow (rowOf m i) (rowOf (m + 1) i)) t) :=
    fun ht m => hP.mmStepRow (hP.mmStepRow (hP.mmStepRow (hP.mmStepRow ht _ _) _ _) _ _) _ _
  exact pass (pass (pass h 0) 1) 2

theorem freeMatrices (h : P s) : P s.freeMatrices := hP.useFree (hP.mm _ _ h) _

theorem mmDrawDataless (h : P s) (m d op) : P (s.mmDrawDataless m d op).1 := by
  unfold State.mmDrawDataless
  split
  · split
    · exact hP.freeMatrices h
    · exact hP.newCurve h
    · exact hP.mmRoute (hP.curve2d h _) _
    · exact hP.mmRoute (hP.curve3d h) _
  · exact h

theorem mmDraw (h : P s) (c) : P (s.mmDraw c).1 := by
  unfold State.mmDraw
  split
  · exact hP.mmDrawData h _ _
  · exact hP.mmDrawDataless h _ _ _

/-! ### The Clipping Divider -/

theorem cdWrite (h : P s) (r v0 v1) : P (s.cdWrite r v0 v1) := by
  unfold State.cdWrite
  split
  all_goals first
    | exact hP.cd _ _ (fun _ => rfl) h
    | exact h
    | skip
  have h1 : P { s with cd := selintLoad s.cd s.mode v0 v1 } := hP.cd _ _ (fun hu => by simp [selintLoad, hu]) h
  dsimp only
  split
  · exact hP.raise h1 _
  · exact h1

theorem setAic (h : P s) (a) : P (s.setAic a) := hP.aic _ _ h
theorem setHit (h : P s) : P s.setHit := hP.hit _ h
theorem countsUpdate (h : P s) : P s.countsUpdate := hP.cd _ _ (fun _ => rfl) h

theorem cdMemOut (h : P s) (d a b) : P (s.cdMemOut d a b) := by
  unfold State.cdMemOut
  split
  · exact hP.outputWords _ h
  · exact h

theorem emit (h : P s) (k x y z) : P (s.emit k x y z) := hP.scope _ _ h

theorem emitLine (h : P s) (d a b) : P (s.emitLine d a b) := by
  unfold State.emitLine
  have h1 : P (if s.cd.violation then s.raise .scopeViolation else s) := choice (hP.raise h _) h
  exact hP.emit (choice h1 (hP.emit h1 _ _ _ _)) _ _ _ _

theorem visiblePart (h : P s) (d p q v) : P (s.visiblePart d p q v) := by
  unfold State.visiblePart
  exact choice (hP.emitLine (hP.cdMemOut (hP.setHit h) _ _ _) _ _ _) (hP.cdMemOut (hP.setHit h) _ _ _)

theorem partIfVisible (h : P s) (d p q v) : P (s.partIfVisible d p q v) := by
  cases v with
  | none => exact h
  | some v => exact hP.useFree (hP.visiblePart h _ _ _ _) _

theorem line3d (h : P s) (p q v w) : P (s.line3d p q v w) :=
  choice (hP.partIfVisible (hP.useFree h _) _ _ _ _) (hP.partIfVisible (hP.partIfVisible h _ _ _ _) _ _ _ _)

theorem line (h : P s) (p q) : P (s.line p q) := by
  have h1 := hP.useFree (hP.countsUpdate h) 2
  cases p with
  | two => exact hP.partIfVisible h1 _ _ _ _
  | four => exact hP.line3d h1 _ _ _ _

theorem setSave (h : P s) (p) : P (s.setSave p) := by
  cases p <;> exact hP.cd _ _ (fun _ => rfl) h

theorem boxOp (h : P s) (m n) : P (s.boxOp m n) := by
  unfold State.boxOp
  dsimp only
  refine hP.useFree (hP.cd s _ ?_ h) _
  exact fun _ => rfl

theorem setPointOp (h : P s) (n) : P (s.setPointOp n) :=
  hP.useFree (hP.emit (hP.cdMemOut (hP.setSave h _) _ _ _) _ _ _ _) _

theorem cdDraw (h : P s) (c op q) : P (s.cdDraw c op q) := by
  unfold State.cdDraw
  split
  · cases op
    · exact hP.setPointOp h _
    · exact hP.setSave (hP.line h _ _) _
    · exact hP.line h _ _
    · exact hP.setSave (hP.line h _ _) _
    · exact hP.boxOp h _ _
  · exact h

/-! ### The pipeline -/

theorem apply (h : P s) (c) : P (s.apply c) := by
  unfold State.apply
  dsimp only
  split
  · exact hP.cdDraw (hP.mmDraw h c) _ _ _
  · exact hP.mmDraw h c

theorem pipelineStep (h : P s) : P s.pipelineStep := by
  unfold State.pipelineStep
  split
  · exact h
  · exact hP.apply (hP.queue _ _ h) _

theorem applyAll (cs : List Command) : ∀ {s : State}, P s → P (cs.foldl State.apply s) := by
  induction cs with
  | nil => exact fun h => h
  | cons c cs ih => exact fun h => ih (hP.apply h c)

theorem settle (h : P s) : P s.settle := hP.applyAll _ (hP.queue _ _ h)

theorem betweenIterations (h : P s) (e) : P (s.betweenIterations e) := by
  cases e
  case pipeline => exact hP.pipelineStep h
  case hostRead => exact hP.hostRead h _
  case hostWrite => exact hP.hostWrite h _ _
  all_goals exact h

theorem turn (h : P s) : P s.turn := hP.popTurn h fun _ e ht => hP.betweenIterations ht e

theorem sendDraw (h : P s) (op f d) : P (s.sendDraw op f d) := by
  unfold State.sendDraw
  dsimp only
  split
  · exact hP.settle (hP.gap (hP.queue _ _ h))
  · exact hP.queue _ _ h

/-! ### Load and unload -/

theorem loadCd (h : P s) (m a d) : P (s.loadCd m a d) := by
  cases d with
  | two => exact choice (hP.setAic (hP.cdWrite (hP.cdWrite h _ _ _) _ _ _) _) (choice (hP.cdWrite h _ _ _) (hP.cdWrite h _ _ _))
  | four => exact hP.cdWrite (hP.cdWrite h _ _ _) _ _ _

theorem loadMdirTuple (h : P s) (d) : P (s.loadMdirTuple d) := by
  cases d with
  | two => exact hP.loadMdir h _ _
  | four => exact hP.loadMdir (hP.loadMdir h _ _) _ _

theorem load (h : P s) (m a d) : P (s.load m a d) := by
  cases m
  case mm => exact hP.setMmRow h _ _
  case mmr => exact hP.setMmRow h _ _
  case mmp => exact hP.setMmRow h _ _
  case mdr => exact hP.loadMdirTuple h _
  all_goals exact hP.loadCd h _ _ _

theorem copyRow (h : P s) (d a b) : P (s.copyRow d a b) := hP.setMmRow h _ _

theorem shiftA (h : P s) : P s.shiftA := by
  unfold State.shiftA
  generalize matrixA = l
  induction l generalizing s with
  | nil => exact h
  | cons p l ih => exact ih (hP.setMm h _ _ _)

theorem normalize (n : Nat) : ∀ {s : State}, P s → P (State.normalize n s) := by
  induction n with
  | zero => exact fun h => h
  | succ n ih =>
    intro s h
    unfold State.normalize
    split
    · exact h
    · exact ih (hP.shiftA h)

theorem writeUp (ws : List Word) : ∀ {s : State}, P s → ∀ a, P (s.writeUp a ws).1 := by
  induction ws with
  | nil => exact fun h _ => h
  | cons w ws ih =>
    intro s h a
    unfold State.writeUp
    split
    · exact h
    · next ht => exact hP.memWrite h ht
    · next ht => exact ih (hP.gap (hP.memWrite h ht)) _

/-- `P` holds of the state a read of several words leaves, whether or not a condition stopped it. -/
def Reads (P : State → Prop) {α : Type} : Except Stopped (α × State) → Prop
  | .ok r => P r.2
  | .error e => P e.2.2

omit hP in
theorem reads_bind {α β : Type} {x : Except Stopped (α × State)} {f : α × State → Except Stopped (β × State)} (hx : Reads P x)
    (hf : ∀ a t, P t → Reads P (f (a, t))) : Reads P (x >>= f) := by
  cases x with
  | ok r => exact hf _ _ hx
  | error e => exact hx

omit hP in
theorem readFirst (h : P s) (a) : Reads P (s.readFirst a) := by
  unfold State.readFirst
  cases s.memRead a <;> exact h

theorem readNext (h : P s) (k a) : Reads P (s.readNext k a) := by
  unfold State.readNext
  cases s.gap.memRead a <;> exact hP.gap h

theorem readUp (h : P s) (d a) : Reads P (s.readUp d a) :=
  reads_bind (readFirst h _) fun _ _ h0 => reads_bind (hP.readNext h0 _ _) fun _ _ h1 => by
    cases d
    · exact reads_bind (hP.readNext h1 _ _) fun _ _ h2 => reads_bind (hP.readNext h2 _ _) fun _ _ h3 => h3
    · exact h1

theorem readDown (h : P s) (d a) : Reads P (s.readDown d a) :=
  reads_bind (readFirst h _) fun _ _ h0 => reads_bind (hP.readNext h0 _ _) fun _ _ h1 => by
    cases d
    · exact reads_bind (hP.readNext h1 _ _) fun _ _ h2 => reads_bind (hP.readNext h2 _ _) fun _ _ h3 => h3
    · exact h1

theorem fetchWords (h : P s) (k) : Reads P (s.fetchWords k) := by
  unfold State.fetchWords
  split
  · exact reads_bind (hP.readDown h _ _) fun _ _ ht => hP.setReg ht _ _
  · exact reads_bind (hP.readUp h _ _) fun _ _ ht => hP.setReg ht _ _

theorem storeWords (h : P s) (k d) : P (s.storeWords k d).1 := by
  unfold State.storeWords
  have hw := hP.writeUp d.words h (s.reg (if k then Reg.dsp else Reg.rp))
  dsimp only
  split
  · next heq => rw [heq] at hw; exact hP.setReg hw _ _
  · next heq => rw [heq] at hw; exact hw

theorem transferOnce (h : P s) (act k a) : P (s.transferOnce act k a).1 := by
  unfold State.transferOnce
  split
  · have hf := hP.fetchWords h k
    split
    · next heq => rw [heq] at hf; exact hP.load hf _ _ _
    · next heq => rw [heq] at hf; exact hf
  · have hf := hP.fetchWords h k
    split
    · next heq => rw [heq] at hf; exact hP.setMmRow (hP.copyRow hf _ _ _) _ _
    · next heq => rw [heq] at hf; exact hf
  · exact hP.storeWords h _ _
  · have hs := hP.storeWords h k (s.unload s.twoD .matrix a)
    split
    · next heq => rw [heq] at hs; exact hP.copyRow hs _ _ _
    · next heq => rw [heq] at hs; exact hs
  · exact hP.copyRow h _ _ _
  · exact hP.copyRow h _ _ _
  · exact h

theorem setRsrAddress (h : P s) (a) : P (s.setRsrAddress a) := hP.rsr _ _ h
theorem beginTransfer (h : P s) (u k n a) : P (s.beginTransfer u k n a) := hP.rsr _ _ h
theorem endRepeat (h : P s) : P s.endRepeat := hP.rsr _ _ h
theorem setRsrFsm (h : P s) (f1 f2) : P (s.setRsrFsm f1 f2) := hP.rsr _ _ h
theorem beginDraw (h : P s) (f1 f2) : P (s.beginDraw f1 f2) := hP.setRsrFsm (hP.rsr _ _ h) _ _

theorem transferLoop (act u k) (n : Nat) : ∀ (a) {s : State}, P s → P (State.transferLoop act u k n a s) := by
  induction n with
  | zero => exact fun _ _ h => h
  | succ n ih =>
    intro a s h
    unfold State.transferLoop
    have ht := hP.transferOnce (hP.setRsrAddress h a) act k a
    split
    · next heq => rw [heq] at ht; exact hP.raise ht _
    · next heq =>
      rw [heq] at ht
      dsimp only
      split
      · split
        · exact hP.endRepeat (hP.setReg ht _ _)
        · exact ih _ (hP.turn (hP.setReg ht _ _))
      · exact hP.endRepeat ht

theorem nomm (h : P s) : P s.nomm := by
  unfold State.nomm
  dsimp only
  refine hP.endRepeat (hP.setReg ?_ _ _)
  split
  · exact h
  · exact hP.normalize _ h

theorem setRegTuple (h : P s) (c d) : P (s.setRegTuple c d) := by
  cases d with
  | two => exact hP.setReg (hP.setReg h _ _) _ _
  | four => exact hP.setReg (hP.setReg (hP.setReg (hP.setReg h _ _) _ _) _ _) _ _

theorem regTransferOnce (h : P s) (act c a) : P (s.regTransferOnce act c a) := by
  cases act
  · exact hP.load h _ _ _
  · exact hP.setRegTuple h _ _
  · exact hP.setMmRow (hP.copyRow h _ _ _) _ _
  · exact hP.copyRow (hP.setRegTuple h _ _) _ _ _
  · exact hP.copyRow h _ _ _
  · exact hP.copyRow h _ _ _
  · exact hP.nomm h

theorem regTransfer (h : P s) (act x a) : P (s.regTransfer act x a) := by
  unfold State.regTransfer
  have h1 := hP.regTransferOnce (hP.setRsrAddress h a) act (xFirst x) a
  dsimp only
  refine hP.endRepeat ?_
  split
  · exact hP.regTransferOnce (hP.setRsrAddress h1 _) _ _ _
  · exact h1

theorem runTransfer (h : P s) (f u k n a) : P (s.runTransfer f u k n a) := by
  unfold State.runTransfer
  split
  · exact hP.raise h _
  · exact hP.nomm h
  · split
    · exact hP.transferLoop _ _ _ _ _ h
    · exact hP.regTransfer h _ _ _

/-! ### Drawing -/

theorem drawStep (h : P s) (op f d) : P (s.drawStep op f d) := by
  unfold State.drawStep
  dsimp only
  refine hP.sendDraw ?_ _ _ _
  split
  · exact hP.setRegTuple h _ _
  · exact h

theorem readPoint (h : P s) (a) : Reads P (s.readPoint a) :=
  reads_bind (readFirst h _) fun _ t0 h0 => reads_bind (hP.readNext h0 _ _) fun _ t1 h1 => by
    dsimp only
    split
    · exact h1
    · exact reads_bind (hP.readNext h1 _ _) fun _ _ h2 => reads_bind (hP.readNext h2 _ _) fun _ _ h3 => h3
    · exact reads_bind (hP.readNext h1 _ _) fun _ _ h2 => h2
    · exact reads_bind (hP.readNext h1 _ _) fun _ _ h2 => h2

theorem tablePoint (h : P s) (i x) :
    match s.tablePoint i x with
    | .ok r => P r.2
    | .error e => P e.2 := by
  unfold State.tablePoint
  dsimp only
  by_cases hi : i = true
  · simp only [hi, if_true]
    cases s.memRead (s.reg Reg.rp) with
    | error c => exact h
    | ok q =>
      dsimp only
      generalize ha : (if x = true then q + (s.setReg Reg.rp (s.reg Reg.rp + 1)).gap.reg Reg.ir else q) = a
      have hr := hP.readPoint (hP.gap (hP.setReg h Reg.rp (s.reg Reg.rp + 1))) a
      revert hr
      cases State.readPoint (s.setReg Reg.rp (s.reg Reg.rp + 1)).gap a <;> exact fun hr => hr
  · simp only [hi]
    have hr := hP.readPoint h (s.reg Reg.rp)
    revert hr
    cases s.readPoint (s.reg Reg.rp) with
    | ok d => exact fun hr => hP.setReg hr _ _
    | error e => exact fun hr => hP.setReg hr _ _

theorem tableOnce (h : P s) (i x f1 f2) : P (s.tableOnce i x f1 f2) := by
  unfold State.tableOnce
  have hp := hP.tablePoint h i x
  split
  · next heq => rw [heq] at hp; exact hP.raise (hP.regs _ _ hp) _
  · next d t heq =>
    rw [heq] at hp
    exact hP.endRepeat (hP.setRsrFsm (hP.drawStep (hP.beginDraw (s := t) hp _ _) _ _ _) _ _)

theorem tableDraw (i x) (n : Nat) : ∀ (f1 f2) {s : State}, P s → P (State.tableDraw i x n f1 f2 s) := by
  induction n with
  | zero => exact fun _ _ _ h => h
  | succ n ih =>
    intro f1 f2 s h
    unfold State.tableDraw
    have hp := hP.tablePoint h i x
    split
    · next heq => rw [heq] at hp; exact hP.raise hp _
    · next d t heq =>
      rw [heq] at hp
      have h1 := hP.setRsrFsm (hP.drawStep (s := t) hp (fsm1Op f1) (fsm2Form f2) d) (fsm1Next f1) (fsm2Next f2)
      dsimp only
      split
      · split
        · exact hP.endRepeat (hP.setReg h1 _ _)
        · exact ih _ _ (hP.turn (hP.setReg h1 _ _))
      · exact hP.endRepeat h1

theorem matrixDraw (r) (n : Nat) : ∀ (f1 f2) {s : State}, P s → P (State.matrixDraw r n f1 f2 s) := by
  induction n with
  | zero => exact fun _ _ _ h => h
  | succ n ih =>
    intro f1 f2 s h
    unfold State.matrixDraw
    have h1 := hP.setRsrFsm (hP.sendDraw h (fsm1Op f1) .absolute none) (fsm1Next f1) (fsm2Next f2)
    dsimp only
    split
    · split
      · exact hP.endRepeat (hP.setReg h1 _ _)
      · exact ih _ _ (hP.turn (hP.setReg h1 _ _))
    · exact hP.endRepeat h1

theorem registerDraw (h : P s) (x f1 f2) : P (s.registerDraw x f1 f2) := by
  unfold State.registerDraw
  dsimp only
  split
  · exact hP.endRepeat (hP.setRsrFsm (hP.drawStep (hP.turn (hP.setRsrFsm (hP.drawStep h _ _ _) _ _)) _ _ _) _ _)
  · exact hP.endRepeat (hP.setRsrFsm (hP.drawStep h _ _ _) _ _)

theorem runDraw (h : P s) (c f1 f2) : P (s.runDraw c f1 f2) := by
  have hb := hP.beginDraw h f1 f2
  unfold State.runDraw
  split
  · exact hP.tableDraw _ _ _ _ _ hb
  · exact hP.tableOnce h _ _ _ _
  · exact hP.matrixDraw _ _ _ _ hb
  · exact hP.registerDraw hb _ _ _

theorem resumeDraw (h : P s) (c) : P (s.resumeDraw c) := hP.runDraw h _ _ _
theorem resumeTransfer (h : P s) (f) : P (s.resumeTransfer f) := hP.runTransfer h _ _ _ _ _

theorem startTransfer (h : P s) (f c u k n a) : P (s.startTransfer f c u k n a) := by
  unfold State.startTransfer
  have ht := hP.settle h
  dsimp only
  split
  · split
    · exact hP.resumeDraw ht _
    · exact hP.resumeTransfer ht _
  · exact hP.runTransfer (hP.beginTransfer ht _ _ _ _) _ _ _ _ _

theorem startDraw (h : P s) (c f1 f2) : P (s.startDraw c f1 f2) := by
  unfold State.startDraw
  split
  · exact hP.resumeDraw h _
  · split
    · exact hP.resumeTransfer (hP.settle h) _
    · exact hP.runDraw h _ _ _

theorem memoryForm (h : P s) (u n a) : P (s.memoryForm u n a) := hP.startTransfer h _ _ _ _ _ _
theorem sinkForm (h : P s) (u n a) : P (s.sinkForm u n a) := hP.startTransfer h _ _ _ _ _ _
theorem registerForm (h : P s) (u n a x) : P (s.registerForm u n a x) := hP.startTransfer h _ _ _ _ _ _

theorem singleDraw (h : P s) (m a) : P (s.singleDraw m a) := by
  unfold State.singleDraw
  dsimp only
  have hr := hP.readPoint h a
  split
  · next heq => rw [heq] at hr; exact hP.setRsrFsm (hP.rsr _ _ (hP.drawStep (s := _) hr _ _ _)) _ _
  · next heq => rw [heq] at hr; exact hP.raise hr _

end Elementary

end Sys2Proof.Machine
end

