-- ==== Sys2Proof/Laws/Encode.lean ====
section
/-!
SUPPORT. The fields of a word put together by the encoder, as the decoder reads them back (R143, R145), and the codes of operands.
-/

namespace Sys2Proof

open Decode

/-! ### fmtAddr -/

section

variable (c r : BitVec 4) (a : BitVec 16)

@[simp] theorem fClass_fmtAddr : fClass (fmtAddr c r a) = c := by
  apply BitVec.eq_of_getLsbD_eq
  intro i hi
  simp only [fClass, fmtAddr, BitVec.getLsbD_extractLsb', BitVec.getLsbD_append]
  interval_cases i <;> simp

@[simp] theorem fR_fmtAddr : fR (fmtAddr c r a) = r := by
  apply BitVec.eq_of_getLsbD_eq
  intro i hi
  simp only [fR, fmtAddr, BitVec.getLsbD_extractLsb', BitVec.getLsbD_append]
  interval_cases i <;> simp

@[simp] theorem fAddr_fmtAddr : fAddr (fmtAddr c r a) = a := by
  apply BitVec.eq_of_getLsbD_eq
  intro i hi
  simp only [fAddr, fmtAddr, BitVec.getLsbD_extractLsb', BitVec.getLsbD_append]
  interval_cases i <;> simp

@[simp] theorem fI_fmtAddr : fI (fmtAddr c r a) = c.getMsbD 0 := by
  simp only [fI, fmtAddr, BitVec.getMsbD, BitVec.getLsbD_append]
  simp

end

/-! ### fmtRR -/

section

variable (c r r2 fn : BitVec 4)

@[simp] theorem fClass_fmtRR : fClass (fmtRR c r r2 fn) = c := by
  apply BitVec.eq_of_getLsbD_eq
  intro i hi
  simp only [fClass, fmtRR, BitVec.getLsbD_extractLsb', BitVec.getLsbD_append]
  interval_cases i <;> simp

@[simp] theorem fR_fmtRR : fR (fmtRR c r r2 fn) = r := by
  apply BitVec.eq_of_getLsbD_eq
  intro i hi
  simp only [fR, fmtRR, BitVec.getLsbD_extractLsb', BitVec.getLsbD_append]
  interval_cases i <;> simp

@[simp] theorem fR2_fmtRR : fR2 (fmtRR c r r2 fn) = r2 := by
  apply BitVec.eq_of_getLsbD_eq
  intro i hi
  simp only [fR2, fmtRR, BitVec.getLsbD_extractLsb', BitVec.getLsbD_append]
  interval_cases i <;> simp

@[simp] theorem fFn_fmtRR : fFn (fmtRR c r r2 fn) = fn := by
  apply BitVec.eq_of_getLsbD_eq
  intro i hi
  simp only [fFn, fmtRR, BitVec.getLsbD_extractLsb', BitVec.getLsbD_append]
  interval_cases i <;> simp

@[simp] theorem fUnused_fmtRR : fUnused (fmtRR c r r2 fn) = 0#8 := by
  apply BitVec.eq_of_getLsbD_eq
  intro i hi
  simp only [fUnused, fmtRR, BitVec.getLsbD_extractLsb', BitVec.getLsbD_append]
  interval_cases i <;> simp

@[simp] theorem fI_fmtRR : fI (fmtRR c r r2 fn) = c.getMsbD 0 := by
  simp only [fI, fmtRR, BitVec.getMsbD, BitVec.getLsbD_append]
  simp

end

/-! ### fmtRN -/

section

variable (c r : BitVec 4) (n : BitVec 12) (fn : BitVec 4)

@[simp] theorem fClass_fmtRN : fClass (fmtRN c r n fn) = c := by
  apply BitVec.eq_of_getLsbD_eq
  intro i hi
  simp only [fClass, fmtRN, BitVec.getLsbD_extractLsb', BitVec.getLsbD_append]
  interval_cases i <;> simp

@[simp] theorem fR_fmtRN : fR (fmtRN c r n fn) = r := by
  apply BitVec.eq_of_getLsbD_eq
  intro i hi
  simp only [fR, fmtRN, BitVec.getLsbD_extractLsb', BitVec.getLsbD_append]
  interval_cases i <;> simp

@[simp] theorem fN_fmtRN : fN (fmtRN c r n fn) = n := by
  apply BitVec.eq_of_getLsbD_eq
  intro i hi
  simp only [fN, fmtRN, BitVec.getLsbD_extractLsb', BitVec.getLsbD_append]
  interval_cases i <;> simp

@[simp] theorem fFn_fmtRN : fFn (fmtRN c r n fn) = fn := by
  apply BitVec.eq_of_getLsbD_eq
  intro i hi
  simp only [fFn, fmtRN, BitVec.getLsbD_extractLsb', BitVec.getLsbD_append]
  interval_cases i <;> simp

@[simp] theorem fI_fmtRN : fI (fmtRN c r n fn) = c.getMsbD 0 := by
  simp only [fI, fmtRN, BitVec.getMsbD, BitVec.getLsbD_append]
  simp

end

/-! ### fmtRB -/

section

variable (c r : BitVec 4) (b : BitVec 5) (fn : BitVec 4)

@[simp] theorem fClass_fmtRB : fClass (fmtRB c r b fn) = c := by
  apply BitVec.eq_of_getLsbD_eq
  intro i hi
  simp only [fClass, fmtRB, BitVec.getLsbD_extractLsb', BitVec.getLsbD_append]
  interval_cases i <;> simp

@[simp] theorem fR_fmtRB : fR (fmtRB c r b fn) = r := by
  apply BitVec.eq_of_getLsbD_eq
  intro i hi
  simp only [fR, fmtRB, BitVec.getLsbD_extractLsb', BitVec.getLsbD_append]
  interval_cases i <;> simp

@[simp] theorem fB_fmtRB : fB (fmtRB c r b fn) = b := by
  apply BitVec.eq_of_getLsbD_eq
  intro i hi
  simp only [fB, fmtRB, BitVec.getLsbD_extractLsb', BitVec.getLsbD_append]
  interval_cases i <;> simp

@[simp] theorem fFn_fmtRB : fFn (fmtRB c r b fn) = fn := by
  apply BitVec.eq_of_getLsbD_eq
  intro i hi
  simp only [fFn, fmtRB, BitVec.getLsbD_extractLsb', BitVec.getLsbD_append]
  interval_cases i <;> simp

@[simp] theorem fUnusedB_fmtRB : fUnusedB (fmtRB c r b fn) = 0#7 := by
  apply BitVec.eq_of_getLsbD_eq
  intro i hi
  simp only [fUnusedB, fmtRB, BitVec.getLsbD_extractLsb', BitVec.getLsbD_append]
  interval_cases i <;> simp

@[simp] theorem fI_fmtRB : fI (fmtRB c r b fn) = c.getMsbD 0 := by
  simp only [fI, fmtRB, BitVec.getMsbD, BitVec.getLsbD_append]
  simp

end

/-! ### Operands -/

@[simp] theorem toReg_ofReg (r : Reg) : toReg (ofReg r) = r := by
  revert r; decide

@[simp] theorem toCount_ofCount (b : BitCount) : toCount (ofCount b) = b := by
  revert b; decide

@[simp] theorem toManner_ofManner (m : Manner) : toManner (ofManner m) = some m := by cases m <;> rfl

@[simp] theorem toXSel_ofXSel (x : XSel) : toXSel (ofXSel x) = some x := by cases x <;> rfl

@[simp] theorem toFsm1_ofFsm1 (f : Fsm1) : toFsm1 (ofFsm1 f) = f := by cases f <;> rfl

@[simp] theorem toFsm2_ofFsm2 (f : Fsm2) : toFsm2 (ofFsm2 f) = f := by cases f <;> rfl

end Sys2Proof
end

