-- ==== Sys2Proof/Laws/Memory.lean ====
section
/-!
SUPPORT. The laws of the shared memory: read after write, what a write leaves alone, and the canonical form that every memory
operation keeps.
-/

namespace Sys2Proof.Machine

/-- A write leaves every other byte as it was. -/
theorem Memory.readByte_writeByte_of_ne (m : List Host.Cell) {a b : Nat} (v : Byte) (h : b ≠ a) :
    Memory.readByte (Memory.writeByte m a v) b = Memory.readByte m b := by
  induction m with
  | nil =>
    unfold Memory.writeByte
    split
    · rfl
    · simp [Memory.readByte, Ne.symm h]
  | cons c rest ih =>
    obtain ⟨k, x⟩ := c
    unfold Memory.writeByte
    split
    · split
      · rfl
      · simp [Memory.readByte, Ne.symm h]
    · split
      · next hk =>
        subst hk
        split <;> simp [Memory.readByte, Ne.symm h]
      · simp [Memory.readByte, ih]

/-- The canonical form of a list of cells, taken apart. -/
theorem Memory.wf_cons {k : Nat} {x : Byte} {rest : List Host.Cell} :
    Memory.wf ((k, x) :: rest) = true ↔ x ≠ Memory.unlisted ∧ (∀ c ∈ rest, k < c.1) ∧ Memory.wf rest = true := by
  simp [Memory.wf, and_assoc, bne_iff_ne, List.all_eq_true]

/-- An address below every listed one reads as an unlisted byte. -/
theorem Memory.readByte_of_lt (m : List Host.Cell) {a : Nat} (h : ∀ c ∈ m, a < c.1) :
    Memory.readByte m a = Memory.unlisted := by
  induction m with
  | nil => rfl
  | cons c rest ih =>
    obtain ⟨k, x⟩ := c
    have hk : a < k := h (k, x) (by simp)
    simp [Memory.readByte, Nat.ne_of_gt hk, ih fun c hc => h c (by simp [hc])]

/-- A read of the byte just written gives it. -/
theorem Memory.readByte_writeByte_self {m : List Host.Cell} (hw : Memory.wf m = true) (a : Nat) (v : Byte) :
    Memory.readByte (Memory.writeByte m a v) a = v := by
  induction m with
  | nil =>
    unfold Memory.writeByte
    split
    · next h => simp [Memory.readByte, h]
    · simp [Memory.readByte]
  | cons c rest ih =>
    obtain ⟨k, x⟩ := c
    obtain ⟨-, hlt, hr⟩ := Memory.wf_cons.1 hw
    unfold Memory.writeByte
    split
    · next ha =>
      split
      · next h =>
        subst h
        exact Memory.readByte_of_lt _ fun c hc => by
          rcases List.mem_cons.1 hc with rfl | hc
          · exact ha
          · exact ha.trans (hlt c hc)
      · simp [Memory.readByte]
    · split
      · next hk =>
        subst hk
        split
        · next h => subst h; exact Memory.readByte_of_lt _ hlt
        · simp [Memory.readByte]
      · next hk => simp [Memory.readByte, Ne.symm hk, ih hr]

/-- Every address of the written memory was listed or is the one written. -/
theorem Memory.mem_writeByte {m : List Host.Cell} {a : Nat} {v : Byte} {c : Host.Cell}
    (h : c ∈ Memory.writeByte m a v) : c ∈ m ∨ c.1 = a := by
  induction m with
  | nil =>
    unfold Memory.writeByte at h
    split at h
    · simp at h
    · exact .inr (by simp_all)
  | cons d rest ih =>
    obtain ⟨k, x⟩ := d
    unfold Memory.writeByte at h
    split at h
    · split at h
      · exact .inl h
      · rcases List.mem_cons.1 h with rfl | h
        · exact .inr rfl
        · exact .inl h
    · split at h
      · split at h
        · exact .inl (List.mem_cons_of_mem _ h)
        · rcases List.mem_cons.1 h with rfl | h
          · exact .inr rfl
          · exact .inl (List.mem_cons_of_mem _ h)
      · rcases List.mem_cons.1 h with rfl | h
        · exact .inl (by simp)
        · rcases ih h with h | h
          · exact .inl (List.mem_cons_of_mem _ h)
          · exact .inr h

/-- A byte written leaves the memory in canonical form. -/
theorem Memory.wf_writeByte {m : List Host.Cell} (hw : Memory.wf m = true) (a : Nat) (v : Byte) :
    Memory.wf (Memory.writeByte m a v) = true := by
  induction m with
  | nil =>
    unfold Memory.writeByte
    split
    · rfl
    · next h => exact Memory.wf_cons.2 ⟨h, by simp, rfl⟩
  | cons c rest ih =>
    obtain ⟨k, x⟩ := c
    obtain ⟨hx, hlt, hr⟩ := Memory.wf_cons.1 hw
    unfold Memory.writeByte
    split
    · next ha =>
      split
      · exact hw
      · next h =>
        refine Memory.wf_cons.2 ⟨h, fun c hc => ?_, hw⟩
        rcases List.mem_cons.1 hc with rfl | hc
        · exact ha
        · exact ha.trans (hlt c hc)
    · next ha =>
      split
      · next hk =>
        subst hk
        split
        · exact hr
        · next h => exact Memory.wf_cons.2 ⟨h, hlt, hr⟩
      · next hk =>
        refine Memory.wf_cons.2 ⟨hx, fun c hc => ?_, ih hr⟩
        rcases Memory.mem_writeByte hc with hc | hc
        · exact hlt c hc
        · omega

/-- A word written leaves the memory in canonical form. -/
theorem Memory.wf_writeWord {m : List Host.Cell} (hw : Memory.wf m = true) (p : Nat) (v : Word) :
    Memory.wf (Memory.writeWord m p v) = true :=
  Memory.wf_writeByte (Memory.wf_writeByte (Memory.wf_writeByte hw _ _) _ _) _ _

/-- A word written leaves the bytes of every other word as they were. -/
theorem Memory.readByte_writeWord (m : List Host.Cell) {p b : Nat} (v : Word) (h : b < 3 * p ∨ 3 * p + 3 ≤ b) :
    Memory.readByte (Memory.writeWord m p v) b = Memory.readByte m b := by
  unfold Memory.writeWord
  rw [Memory.readByte_writeByte_of_ne _ _ (by omega), Memory.readByte_writeByte_of_ne _ _ (by omega),
    Memory.readByte_writeByte_of_ne _ _ (by omega)]

/-- A word written leaves every other word as it was. -/
theorem Memory.readWord_writeWord_of_ne (m : List Host.Cell) {p q : Nat} (v : Word) (h : q ≠ p) :
    Memory.readWord (Memory.writeWord m p v) q = Memory.readWord m q := by
  unfold Memory.readWord
  rw [Memory.readByte_writeWord _ _ (by omega), Memory.readByte_writeWord _ _ (by omega),
    Memory.readByte_writeWord _ _ (by omega)]

/-- The three bytes of a word put together again. -/
theorem Memory.bytes_of_word (v : Word) : v.extractLsb' 16 8 ++ v.extractLsb' 8 8 ++ v.extractLsb' 0 8 = v := by
  apply BitVec.eq_of_getLsbD_eq
  intro i hi
  simp only [BitVec.getLsbD_append, BitVec.getLsbD_extractLsb']
  have h24 : i < 24 := hi
  by_cases h1 : i < 8
  · simp [h1]
  · by_cases h2 : i - 8 < 8
    · simp [h1, h2, show 8 + (i - 8) = i by omega]
    · simp [h1, h2, show i - 8 - 8 < 8 by omega, show 16 + (i - 8 - 8) = i by omega]

/-- A read of the word just written gives it. -/
theorem Memory.readWord_writeWord_self {m : List Host.Cell} (hw : Memory.wf m = true) (p : Nat) (v : Word) :
    Memory.readWord (Memory.writeWord m p v) p = v := by
  have h0 := Memory.wf_writeByte hw (3 * p) (v.extractLsb' 16 8)
  have h1 := Memory.wf_writeByte h0 (3 * p + 1) (v.extractLsb' 8 8)
  unfold Memory.readWord Memory.writeWord
  rw [Memory.readByte_writeByte_self h1, Memory.readByte_writeByte_of_ne _ _ (by omega),
    Memory.readByte_writeByte_of_ne _ _ (by omega), Memory.readByte_writeByte_self hw,
    Memory.readByte_writeByte_of_ne _ _ (by omega), Memory.readByte_writeByte_self h0, Memory.bytes_of_word]

/-- The memory of the reset state is in canonical form. -/
theorem Memory.wf_reset : Memory.wf State.reset.mem = true := rfl

end Sys2Proof.Machine
end

