-- ==== Sys2Proof/Laws/State.lean ====
section
/-!
SUPPORT. What each named update of the state leaves of each field: one lemma per field per update, true by `rfl` (or by the two cases of a
flag), so that no later proof unfolds a record update.
-/

namespace Sys2Proof.Machine

/-! ### setReg -/

section

variable (s : State) (r : Reg) (v : Word)

@[simp] theorem State.setReg_regs : (s.setReg r v).regs = s.regs.set r.val v := rfl
@[simp] theorem State.setReg_pc : (s.setReg r v).pc = s.pc := rfl
@[simp] theorem State.setReg_mode : (s.setReg r v).mode = s.mode := rfl
@[simp] theorem State.setReg_pendUser : (s.setReg r v).pendUser = s.pendUser := rfl
@[simp] theorem State.setReg_pendIon : (s.setReg r v).pendIon = s.pendIon := rfl
@[simp] theorem State.setReg_lockLo : (s.setReg r v).lockLo = s.lockLo := rfl
@[simp] theorem State.setReg_lockHi : (s.setReg r v).lockHi = s.lockHi := rfl
@[simp] theorem State.setReg_sleeping : (s.setReg r v).sleeping = s.sleeping := rfl
@[simp] theorem State.setReg_protFF : (s.setReg r v).protFF = s.protFF := rfl
@[simp] theorem State.setReg_xw : (s.setReg r v).xw = s.xw := rfl
@[simp] theorem State.setReg_raised : (s.setReg r v).raised = s.raised := rfl
@[simp] theorem State.setReg_lastEntryHigh : (s.setReg r v).lastEntryHigh = s.lastEntryHigh := rfl
@[simp] theorem State.setReg_dir : (s.setReg r v).dir = s.dir := rfl
@[simp] theorem State.setReg_rsr : (s.setReg r v).rsr = s.rsr := rfl
@[simp] theorem State.setReg_icr : (s.setReg r v).icr = s.icr := rfl
@[simp] theorem State.setReg_imr : (s.setReg r v).imr = s.imr := rfl
@[simp] theorem State.setReg_iodce : (s.setReg r v).iodce = s.iodce := rfl
@[simp] theorem State.setReg_sync : (s.setReg r v).sync = s.sync := rfl
@[simp] theorem State.setReg_protection : (s.setReg r v).protection = s.protection := rfl
@[simp] theorem State.setReg_bar : (s.setReg r v).bar = s.bar := rfl
@[simp] theorem State.setReg_switches : (s.setReg r v).switches = s.switches := rfl
@[simp] theorem State.setReg_lights : (s.setReg r v).lights = s.lights := rfl
@[simp] theorem State.setReg_attention : (s.setReg r v).attention = s.attention := rfl
@[simp] theorem State.setReg_attentionMask : (s.setReg r v).attentionMask = s.attentionMask := rfl
@[simp] theorem State.setReg_stopMask : (s.setReg r v).stopMask = s.stopMask := rfl
@[simp] theorem State.setReg_hostInterrupt : (s.setReg r v).hostInterrupt = s.hostInterrupt := rfl
@[simp] theorem State.setReg_mm : (s.setReg r v).mm = s.mm := rfl
@[simp] theorem State.setReg_mdir : (s.setReg r v).mdir = s.mdir := rfl
@[simp] theorem State.setReg_cd : (s.setReg r v).cd = s.cd := rfl
@[simp] theorem State.setReg_queue : (s.setReg r v).queue = s.queue := rfl
@[simp] theorem State.setReg_scope : (s.setReg r v).scope = s.scope := rfl
@[simp] theorem State.setReg_mem : (s.setReg r v).mem = s.mem := rfl
@[simp] theorem State.setReg_params : (s.setReg r v).params = s.params := rfl
@[simp] theorem State.setReg_inputs : (s.setReg r v).inputs = s.inputs := rfl
@[simp] theorem State.setReg_turns : (s.setReg r v).turns = s.turns := rfl
@[simp] theorem State.setReg_hostSeen : (s.setReg r v).hostSeen = s.hostSeen := rfl
@[simp] theorem State.setReg_freeIx : (s.setReg r v).freeIx = s.freeIx := rfl

end

/-! ### setPc -/

section

variable (s : State) (v : Word)

@[simp] theorem State.setPc_regs : (s.setPc v).regs = s.regs := rfl
@[simp] theorem State.setPc_pc : (s.setPc v).pc = v := rfl
@[simp] theorem State.setPc_mode : (s.setPc v).mode = s.mode := rfl
@[simp] theorem State.setPc_pendUser : (s.setPc v).pendUser = s.pendUser := rfl
@[simp] theorem State.setPc_pendIon : (s.setPc v).pendIon = s.pendIon := rfl
@[simp] theorem State.setPc_lockLo : (s.setPc v).lockLo = s.lockLo := rfl
@[simp] theorem State.setPc_lockHi : (s.setPc v).lockHi = s.lockHi := rfl
@[simp] theorem State.setPc_sleeping : (s.setPc v).sleeping = s.sleeping := rfl
@[simp] theorem State.setPc_protFF : (s.setPc v).protFF = s.protFF := rfl
@[simp] theorem State.setPc_xw : (s.setPc v).xw = s.xw := rfl
@[simp] theorem State.setPc_raised : (s.setPc v).raised = s.raised := rfl
@[simp] theorem State.setPc_lastEntryHigh : (s.setPc v).lastEntryHigh = s.lastEntryHigh := rfl
@[simp] theorem State.setPc_dir : (s.setPc v).dir = s.dir := rfl
@[simp] theorem State.setPc_rsr : (s.setPc v).rsr = s.rsr := rfl
@[simp] theorem State.setPc_icr : (s.setPc v).icr = s.icr := rfl
@[simp] theorem State.setPc_imr : (s.setPc v).imr = s.imr := rfl
@[simp] theorem State.setPc_iodce : (s.setPc v).iodce = s.iodce := rfl
@[simp] theorem State.setPc_sync : (s.setPc v).sync = s.sync := rfl
@[simp] theorem State.setPc_protection : (s.setPc v).protection = s.protection := rfl
@[simp] theorem State.setPc_bar : (s.setPc v).bar = s.bar := rfl
@[simp] theorem State.setPc_switches : (s.setPc v).switches = s.switches := rfl
@[simp] theorem State.setPc_lights : (s.setPc v).lights = s.lights := rfl
@[simp] theorem State.setPc_attention : (s.setPc v).attention = s.attention := rfl
@[simp] theorem State.setPc_attentionMask : (s.setPc v).attentionMask = s.attentionMask := rfl
@[simp] theorem State.setPc_stopMask : (s.setPc v).stopMask = s.stopMask := rfl
@[simp] theorem State.setPc_hostInterrupt : (s.setPc v).hostInterrupt = s.hostInterrupt := rfl
@[simp] theorem State.setPc_mm : (s.setPc v).mm = s.mm := rfl
@[simp] theorem State.setPc_mdir : (s.setPc v).mdir = s.mdir := rfl
@[simp] theorem State.setPc_cd : (s.setPc v).cd = s.cd := rfl
@[simp] theorem State.setPc_queue : (s.setPc v).queue = s.queue := rfl
@[simp] theorem State.setPc_scope : (s.setPc v).scope = s.scope := rfl
@[simp] theorem State.setPc_mem : (s.setPc v).mem = s.mem := rfl
@[simp] theorem State.setPc_params : (s.setPc v).params = s.params := rfl
@[simp] theorem State.setPc_inputs : (s.setPc v).inputs = s.inputs := rfl
@[simp] theorem State.setPc_turns : (s.setPc v).turns = s.turns := rfl
@[simp] theorem State.setPc_hostSeen : (s.setPc v).hostSeen = s.hostSeen := rfl
@[simp] theorem State.setPc_freeIx : (s.setPc v).freeIx = s.freeIx := rfl

end

/-! ### skip -/

section

variable (s : State)

@[simp] theorem State.skip_regs : (s.skip).regs = s.regs := rfl
@[simp] theorem State.skip_pc : (s.skip).pc = s.pc + 1 := rfl
@[simp] theorem State.skip_mode : (s.skip).mode = s.mode := rfl
@[simp] theorem State.skip_pendUser : (s.skip).pendUser = s.pendUser := rfl
@[simp] theorem State.skip_pendIon : (s.skip).pendIon = s.pendIon := rfl
@[simp] theorem State.skip_lockLo : (s.skip).lockLo = s.lockLo := rfl
@[simp] theorem State.skip_lockHi : (s.skip).lockHi = s.lockHi := rfl
@[simp] theorem State.skip_sleeping : (s.skip).sleeping = s.sleeping := rfl
@[simp] theorem State.skip_protFF : (s.skip).protFF = s.protFF := rfl
@[simp] theorem State.skip_xw : (s.skip).xw = s.xw := rfl
@[simp] theorem State.skip_raised : (s.skip).raised = s.raised := rfl
@[simp] theorem State.skip_lastEntryHigh : (s.skip).lastEntryHigh = s.lastEntryHigh := rfl
@[simp] theorem State.skip_dir : (s.skip).dir = s.dir := rfl
@[simp] theorem State.skip_rsr : (s.skip).rsr = s.rsr := rfl
@[simp] theorem State.skip_icr : (s.skip).icr = s.icr := rfl
@[simp] theorem State.skip_imr : (s.skip).imr = s.imr := rfl
@[simp] theorem State.skip_iodce : (s.skip).iodce = s.iodce := rfl
@[simp] theorem State.skip_sync : (s.skip).sync = s.sync := rfl
@[simp] theorem State.skip_protection : (s.skip).protection = s.protection := rfl
@[simp] theorem State.skip_bar : (s.skip).bar = s.bar := rfl
@[simp] theorem State.skip_switches : (s.skip).switches = s.switches := rfl
@[simp] theorem State.skip_lights : (s.skip).lights = s.lights := rfl
@[simp] theorem State.skip_attention : (s.skip).attention = s.attention := rfl
@[simp] theorem State.skip_attentionMask : (s.skip).attentionMask = s.attentionMask := rfl
@[simp] theorem State.skip_stopMask : (s.skip).stopMask = s.stopMask := rfl
@[simp] theorem State.skip_hostInterrupt : (s.skip).hostInterrupt = s.hostInterrupt := rfl
@[simp] theorem State.skip_mm : (s.skip).mm = s.mm := rfl
@[simp] theorem State.skip_mdir : (s.skip).mdir = s.mdir := rfl
@[simp] theorem State.skip_cd : (s.skip).cd = s.cd := rfl
@[simp] theorem State.skip_queue : (s.skip).queue = s.queue := rfl
@[simp] theorem State.skip_scope : (s.skip).scope = s.scope := rfl
@[simp] theorem State.skip_mem : (s.skip).mem = s.mem := rfl
@[simp] theorem State.skip_params : (s.skip).params = s.params := rfl
@[simp] theorem State.skip_inputs : (s.skip).inputs = s.inputs := rfl
@[simp] theorem State.skip_turns : (s.skip).turns = s.turns := rfl
@[simp] theorem State.skip_hostSeen : (s.skip).hostSeen = s.hostSeen := rfl
@[simp] theorem State.skip_freeIx : (s.skip).freeIx = s.freeIx := rfl

end

/-! ### skipIf -/

section

variable (s : State) (c : Bool)

@[simp] theorem State.skipIf_regs : (s.skipIf c).regs = s.regs := by cases c <;> rfl
@[simp] theorem State.skipIf_pc : (s.skipIf c).pc = if c then s.pc + 1 else s.pc := by cases c <;> rfl
@[simp] theorem State.skipIf_mode : (s.skipIf c).mode = s.mode := by cases c <;> rfl
@[simp] theorem State.skipIf_pendUser : (s.skipIf c).pendUser = s.pendUser := by cases c <;> rfl
@[simp] theorem State.skipIf_pendIon : (s.skipIf c).pendIon = s.pendIon := by cases c <;> rfl
@[simp] theorem State.skipIf_lockLo : (s.skipIf c).lockLo = s.lockLo := by cases c <;> rfl
@[simp] theorem State.skipIf_lockHi : (s.skipIf c).lockHi = s.lockHi := by cases c <;> rfl
@[simp] theorem State.skipIf_sleeping : (s.skipIf c).sleeping = s.sleeping := by cases c <;> rfl
@[simp] theorem State.skipIf_protFF : (s.skipIf c).protFF = s.protFF := by cases c <;> rfl
@[simp] theorem State.skipIf_xw : (s.skipIf c).xw = s.xw := by cases c <;> rfl
@[simp] theorem State.skipIf_raised : (s.skipIf c).raised = s.raised := by cases c <;> rfl
@[simp] theorem State.skipIf_lastEntryHigh : (s.skipIf c).lastEntryHigh = s.lastEntryHigh := by cases c <;> rfl
@[simp] theorem State.skipIf_dir : (s.skipIf c).dir = s.dir := by cases c <;> rfl
@[simp] theorem State.skipIf_rsr : (s.skipIf c).rsr = s.rsr := by cases c <;> rfl
@[simp] theorem State.skipIf_icr : (s.skipIf c).icr = s.icr := by cases c <;> rfl
@[simp] theorem State.skipIf_imr : (s.skipIf c).imr = s.imr := by cases c <;> rfl
@[simp] theorem State.skipIf_iodce : (s.skipIf c).iodce = s.iodce := by cases c <;> rfl
@[simp] theorem State.skipIf_sync : (s.skipIf c).sync = s.sync := by cases c <;> rfl
@[simp] theorem State.skipIf_protection : (s.skipIf c).protection = s.protection := by cases c <;> rfl
@[simp] theorem State.skipIf_bar : (s.skipIf c).bar = s.bar := by cases c <;> rfl
@[simp] theorem State.skipIf_switches : (s.skipIf c).switches = s.switches := by cases c <;> rfl
@[simp] theorem State.skipIf_lights : (s.skipIf c).lights = s.lights := by cases c <;> rfl
@[simp] theorem State.skipIf_attention : (s.skipIf c).attention = s.attention := by cases c <;> rfl
@[simp] theorem State.skipIf_attentionMask : (s.skipIf c).attentionMask = s.attentionMask := by cases c <;> rfl
@[simp] theorem State.skipIf_stopMask : (s.skipIf c).stopMask = s.stopMask := by cases c <;> rfl
@[simp] theorem State.skipIf_hostInterrupt : (s.skipIf c).hostInterrupt = s.hostInterrupt := by cases c <;> rfl
@[simp] theorem State.skipIf_mm : (s.skipIf c).mm = s.mm := by cases c <;> rfl
@[simp] theorem State.skipIf_mdir : (s.skipIf c).mdir = s.mdir := by cases c <;> rfl
@[simp] theorem State.skipIf_cd : (s.skipIf c).cd = s.cd := by cases c <;> rfl
@[simp] theorem State.skipIf_queue : (s.skipIf c).queue = s.queue := by cases c <;> rfl
@[simp] theorem State.skipIf_scope : (s.skipIf c).scope = s.scope := by cases c <;> rfl
@[simp] theorem State.skipIf_mem : (s.skipIf c).mem = s.mem := by cases c <;> rfl
@[simp] theorem State.skipIf_params : (s.skipIf c).params = s.params := by cases c <;> rfl
@[simp] theorem State.skipIf_inputs : (s.skipIf c).inputs = s.inputs := by cases c <;> rfl
@[simp] theorem State.skipIf_turns : (s.skipIf c).turns = s.turns := by cases c <;> rfl
@[simp] theorem State.skipIf_hostSeen : (s.skipIf c).hostSeen = s.hostSeen := by cases c <;> rfl
@[simp] theorem State.skipIf_freeIx : (s.skipIf c).freeIx = s.freeIx := by cases c <;> rfl

end

/-! ### record -/

section

variable (s : State) (c : Cond)

@[simp] theorem State.record_regs : (s.record c).regs = s.regs := rfl
@[simp] theorem State.record_pc : (s.record c).pc = s.pc := rfl
@[simp] theorem State.record_mode : (s.record c).mode = s.mode := rfl
@[simp] theorem State.record_pendUser : (s.record c).pendUser = s.pendUser := rfl
@[simp] theorem State.record_pendIon : (s.record c).pendIon = s.pendIon := rfl
@[simp] theorem State.record_lockLo : (s.record c).lockLo = s.lockLo := rfl
@[simp] theorem State.record_lockHi : (s.record c).lockHi = s.lockHi := rfl
@[simp] theorem State.record_sleeping : (s.record c).sleeping = s.sleeping := rfl
@[simp] theorem State.record_protFF : (s.record c).protFF = (s.protFF || decide (c = .memoryProtection)) := rfl
@[simp] theorem State.record_xw : (s.record c).xw = s.xw := rfl
@[simp] theorem State.record_raised : (s.record c).raised = s.raised := rfl
@[simp] theorem State.record_lastEntryHigh : (s.record c).lastEntryHigh = s.lastEntryHigh := rfl
@[simp] theorem State.record_dir : (s.record c).dir = s.dir := rfl
@[simp] theorem State.record_rsr : (s.record c).rsr = s.rsr := rfl
@[simp] theorem State.record_icr : (s.record c).icr = setBitAt s.icr c.bit true := rfl
@[simp] theorem State.record_imr : (s.record c).imr = s.imr := rfl
@[simp] theorem State.record_iodce : (s.record c).iodce = s.iodce := rfl
@[simp] theorem State.record_sync : (s.record c).sync = s.sync := rfl
@[simp] theorem State.record_protection : (s.record c).protection = s.protection := rfl
@[simp] theorem State.record_bar : (s.record c).bar = s.bar := rfl
@[simp] theorem State.record_switches : (s.record c).switches = s.switches := rfl
@[simp] theorem State.record_lights : (s.record c).lights = s.lights := rfl
@[simp] theorem State.record_attention : (s.record c).attention = s.attention := rfl
@[simp] theorem State.record_attentionMask : (s.record c).attentionMask = s.attentionMask := rfl
@[simp] theorem State.record_stopMask : (s.record c).stopMask = s.stopMask := rfl
@[simp] theorem State.record_hostInterrupt : (s.record c).hostInterrupt = s.hostInterrupt := rfl
@[simp] theorem State.record_mm : (s.record c).mm = s.mm := rfl
@[simp] theorem State.record_mdir : (s.record c).mdir = s.mdir := rfl
@[simp] theorem State.record_cd : (s.record c).cd = s.cd := rfl
@[simp] theorem State.record_queue : (s.record c).queue = s.queue := rfl
@[simp] theorem State.record_scope : (s.record c).scope = s.scope := rfl
@[simp] theorem State.record_mem : (s.record c).mem = s.mem := rfl
@[simp] theorem State.record_params : (s.record c).params = s.params := rfl
@[simp] theorem State.record_inputs : (s.record c).inputs = s.inputs := rfl
@[simp] theorem State.record_turns : (s.record c).turns = s.turns := rfl
@[simp] theorem State.record_hostSeen : (s.record c).hostSeen = s.hostSeen := rfl
@[simp] theorem State.record_freeIx : (s.record c).freeIx = s.freeIx := rfl

end

/-! ### raise -/

section

variable (s : State) (c : Cond)

@[simp] theorem State.raise_regs : (s.raise c).regs = s.regs := rfl
@[simp] theorem State.raise_pc : (s.raise c).pc = s.pc := rfl
@[simp] theorem State.raise_mode : (s.raise c).mode = s.mode := rfl
@[simp] theorem State.raise_pendUser : (s.raise c).pendUser = s.pendUser := rfl
@[simp] theorem State.raise_pendIon : (s.raise c).pendIon = s.pendIon := rfl
@[simp] theorem State.raise_lockLo : (s.raise c).lockLo = s.lockLo := rfl
@[simp] theorem State.raise_lockHi : (s.raise c).lockHi = s.lockHi := rfl
@[simp] theorem State.raise_sleeping : (s.raise c).sleeping = s.sleeping := rfl
@[simp] theorem State.raise_protFF : (s.raise c).protFF = (s.protFF || decide (c = .memoryProtection)) := rfl
@[simp] theorem State.raise_xw : (s.raise c).xw = s.xw := rfl
@[simp] theorem State.raise_raised : (s.raise c).raised = true := rfl
@[simp] theorem State.raise_lastEntryHigh : (s.raise c).lastEntryHigh = s.lastEntryHigh := rfl
@[simp] theorem State.raise_dir : (s.raise c).dir = s.dir := rfl
@[simp] theorem State.raise_rsr : (s.raise c).rsr = s.rsr := rfl
@[simp] theorem State.raise_icr : (s.raise c).icr = setBitAt s.icr c.bit true := rfl
@[simp] theorem State.raise_imr : (s.raise c).imr = s.imr := rfl
@[simp] theorem State.raise_iodce : (s.raise c).iodce = s.iodce := rfl
@[simp] theorem State.raise_sync : (s.raise c).sync = s.sync := rfl
@[simp] theorem State.raise_protection : (s.raise c).protection = s.protection := rfl
@[simp] theorem State.raise_bar : (s.raise c).bar = s.bar := rfl
@[simp] theorem State.raise_switches : (s.raise c).switches = s.switches := rfl
@[simp] theorem State.raise_lights : (s.raise c).lights = s.lights := rfl
@[simp] theorem State.raise_attention : (s.raise c).attention = s.attention := rfl
@[simp] theorem State.raise_attentionMask : (s.raise c).attentionMask = s.attentionMask := rfl
@[simp] theorem State.raise_stopMask : (s.raise c).stopMask = s.stopMask := rfl
@[simp] theorem State.raise_hostInterrupt : (s.raise c).hostInterrupt = s.hostInterrupt := rfl
@[simp] theorem State.raise_mm : (s.raise c).mm = s.mm := rfl
@[simp] theorem State.raise_mdir : (s.raise c).mdir = s.mdir := rfl
@[simp] theorem State.raise_cd : (s.raise c).cd = s.cd := rfl
@[simp] theorem State.raise_queue : (s.raise c).queue = s.queue := rfl
@[simp] theorem State.raise_scope : (s.raise c).scope = s.scope := rfl
@[simp] theorem State.raise_mem : (s.raise c).mem = s.mem := rfl
@[simp] theorem State.raise_params : (s.raise c).params = s.params := rfl
@[simp] theorem State.raise_inputs : (s.raise c).inputs = s.inputs := rfl
@[simp] theorem State.raise_turns : (s.raise c).turns = s.turns := rfl
@[simp] theorem State.raise_hostSeen : (s.raise c).hostSeen = s.hostSeen := rfl
@[simp] theorem State.raise_freeIx : (s.raise c).freeIx = s.freeIx := rfl

end

/-! ### raiseIf -/

section

variable (s : State) (c : Bool) (k : Cond)

@[simp] theorem State.raiseIf_regs : (s.raiseIf c k).regs = s.regs := by cases c <;> rfl
@[simp] theorem State.raiseIf_pc : (s.raiseIf c k).pc = s.pc := by cases c <;> rfl
@[simp] theorem State.raiseIf_mode : (s.raiseIf c k).mode = s.mode := by cases c <;> rfl
@[simp] theorem State.raiseIf_pendUser : (s.raiseIf c k).pendUser = s.pendUser := by cases c <;> rfl
@[simp] theorem State.raiseIf_pendIon : (s.raiseIf c k).pendIon = s.pendIon := by cases c <;> rfl
@[simp] theorem State.raiseIf_lockLo : (s.raiseIf c k).lockLo = s.lockLo := by cases c <;> rfl
@[simp] theorem State.raiseIf_lockHi : (s.raiseIf c k).lockHi = s.lockHi := by cases c <;> rfl
@[simp] theorem State.raiseIf_sleeping : (s.raiseIf c k).sleeping = s.sleeping := by cases c <;> rfl
@[simp] theorem State.raiseIf_xw : (s.raiseIf c k).xw = s.xw := by cases c <;> rfl
@[simp] theorem State.raiseIf_raised : (s.raiseIf c k).raised = (c || s.raised) := by cases c <;> rfl
@[simp] theorem State.raiseIf_lastEntryHigh : (s.raiseIf c k).lastEntryHigh = s.lastEntryHigh := by cases c <;> rfl
@[simp] theorem State.raiseIf_dir : (s.raiseIf c k).dir = s.dir := by cases c <;> rfl
@[simp] theorem State.raiseIf_rsr : (s.raiseIf c k).rsr = s.rsr := by cases c <;> rfl
@[simp] theorem State.raiseIf_imr : (s.raiseIf c k).imr = s.imr := by cases c <;> rfl
@[simp] theorem State.raiseIf_iodce : (s.raiseIf c k).iodce = s.iodce := by cases c <;> rfl
@[simp] theorem State.raiseIf_sync : (s.raiseIf c k).sync = s.sync := by cases c <;> rfl
@[simp] theorem State.raiseIf_protection : (s.raiseIf c k).protection = s.protection := by cases c <;> rfl
@[simp] theorem State.raiseIf_bar : (s.raiseIf c k).bar = s.bar := by cases c <;> rfl
@[simp] theorem State.raiseIf_switches : (s.raiseIf c k).switches = s.switches := by cases c <;> rfl
@[simp] theorem State.raiseIf_lights : (s.raiseIf c k).lights = s.lights := by cases c <;> rfl
@[simp] theorem State.raiseIf_attention : (s.raiseIf c k).attention = s.attention := by cases c <;> rfl
@[simp] theorem State.raiseIf_attentionMask : (s.raiseIf c k).attentionMask = s.attentionMask := by cases c <;> rfl
@[simp] theorem State.raiseIf_stopMask : (s.raiseIf c k).stopMask = s.stopMask := by cases c <;> rfl
@[simp] theorem State.raiseIf_hostInterrupt : (s.raiseIf c k).hostInterrupt = s.hostInterrupt := by cases c <;> rfl
@[simp] theorem State.raiseIf_mm : (s.raiseIf c k).mm = s.mm := by cases c <;> rfl
@[simp] theorem State.raiseIf_mdir : (s.raiseIf c k).mdir = s.mdir := by cases c <;> rfl
@[simp] theorem State.raiseIf_cd : (s.raiseIf c k).cd = s.cd := by cases c <;> rfl
@[simp] theorem State.raiseIf_queue : (s.raiseIf c k).queue = s.queue := by cases c <;> rfl
@[simp] theorem State.raiseIf_scope : (s.raiseIf c k).scope = s.scope := by cases c <;> rfl
@[simp] theorem State.raiseIf_mem : (s.raiseIf c k).mem = s.mem := by cases c <;> rfl
@[simp] theorem State.raiseIf_params : (s.raiseIf c k).params = s.params := by cases c <;> rfl
@[simp] theorem State.raiseIf_inputs : (s.raiseIf c k).inputs = s.inputs := by cases c <;> rfl
@[simp] theorem State.raiseIf_turns : (s.raiseIf c k).turns = s.turns := by cases c <;> rfl
@[simp] theorem State.raiseIf_hostSeen : (s.raiseIf c k).hostSeen = s.hostSeen := by cases c <;> rfl
@[simp] theorem State.raiseIf_freeIx : (s.raiseIf c k).freeIx = s.freeIx := by cases c <;> rfl

end

/-! ### loadDir -/

section

variable (s : State) (v : Word)

@[simp] theorem State.loadDir_regs : (s.loadDir v).regs = s.regs := rfl
@[simp] theorem State.loadDir_pc : (s.loadDir v).pc = s.pc := rfl
@[simp] theorem State.loadDir_mode : (s.loadDir v).mode = s.mode := rfl
@[simp] theorem State.loadDir_pendUser : (s.loadDir v).pendUser = s.pendUser := rfl
@[simp] theorem State.loadDir_pendIon : (s.loadDir v).pendIon = s.pendIon := rfl
@[simp] theorem State.loadDir_lockLo : (s.loadDir v).lockLo = s.lockLo := rfl
@[simp] theorem State.loadDir_lockHi : (s.loadDir v).lockHi = s.lockHi := rfl
@[simp] theorem State.loadDir_sleeping : (s.loadDir v).sleeping = s.sleeping := rfl
@[simp] theorem State.loadDir_protFF : (s.loadDir v).protFF = s.protFF := rfl
@[simp] theorem State.loadDir_xw : (s.loadDir v).xw = s.xw := rfl
@[simp] theorem State.loadDir_raised : (s.loadDir v).raised = s.raised := rfl
@[simp] theorem State.loadDir_lastEntryHigh : (s.loadDir v).lastEntryHigh = s.lastEntryHigh := rfl
@[simp] theorem State.loadDir_dir : (s.loadDir v).dir = setBitAt v 23 false := rfl
@[simp] theorem State.loadDir_rsr : (s.loadDir v).rsr = s.rsr := rfl
@[simp] theorem State.loadDir_icr : (s.loadDir v).icr = s.icr := rfl
@[simp] theorem State.loadDir_imr : (s.loadDir v).imr = s.imr := rfl
@[simp] theorem State.loadDir_iodce : (s.loadDir v).iodce = s.iodce := rfl
@[simp] theorem State.loadDir_sync : (s.loadDir v).sync = s.sync := rfl
@[simp] theorem State.loadDir_protection : (s.loadDir v).protection = s.protection := rfl
@[simp] theorem State.loadDir_bar : (s.loadDir v).bar = s.bar := rfl
@[simp] theorem State.loadDir_switches : (s.loadDir v).switches = s.switches := rfl
@[simp] theorem State.loadDir_lights : (s.loadDir v).lights = s.lights := rfl
@[simp] theorem State.loadDir_attention : (s.loadDir v).attention = s.attention := rfl
@[simp] theorem State.loadDir_attentionMask : (s.loadDir v).attentionMask = s.attentionMask := rfl
@[simp] theorem State.loadDir_stopMask : (s.loadDir v).stopMask = s.stopMask := rfl
@[simp] theorem State.loadDir_hostInterrupt : (s.loadDir v).hostInterrupt = s.hostInterrupt := rfl
@[simp] theorem State.loadDir_mm : (s.loadDir v).mm = s.mm := rfl
@[simp] theorem State.loadDir_mdir : (s.loadDir v).mdir = s.mdir := rfl
@[simp] theorem State.loadDir_cd : (s.loadDir v).cd = s.cd := rfl
@[simp] theorem State.loadDir_queue : (s.loadDir v).queue = s.queue := rfl
@[simp] theorem State.loadDir_scope : (s.loadDir v).scope = s.scope := rfl
@[simp] theorem State.loadDir_mem : (s.loadDir v).mem = s.mem := rfl
@[simp] theorem State.loadDir_params : (s.loadDir v).params = s.params := rfl
@[simp] theorem State.loadDir_inputs : (s.loadDir v).inputs = s.inputs := rfl
@[simp] theorem State.loadDir_turns : (s.loadDir v).turns = s.turns := rfl
@[simp] theorem State.loadDir_hostSeen : (s.loadDir v).hostSeen = s.hostSeen := rfl
@[simp] theorem State.loadDir_freeIx : (s.loadDir v).freeIx = s.freeIx := rfl

end

/-! ### entered -/

section

variable (s : State) (h : Bool)

@[simp] theorem State.entered_regs : (s.entered h).regs = s.regs := rfl
@[simp] theorem State.entered_pc : (s.entered h).pc = s.pc := rfl
@[simp] theorem State.entered_mode : (s.entered h).mode = .executive := rfl
@[simp] theorem State.entered_pendUser : (s.entered h).pendUser = false := rfl
@[simp] theorem State.entered_pendIon : (s.entered h).pendIon = false := rfl
@[simp] theorem State.entered_lockLo : (s.entered h).lockLo = (s.lockLo || !h) := rfl
@[simp] theorem State.entered_lockHi : (s.entered h).lockHi = (s.lockHi || h) := rfl
@[simp] theorem State.entered_sleeping : (s.entered h).sleeping = false := rfl
@[simp] theorem State.entered_protFF : (s.entered h).protFF = s.protFF := rfl
@[simp] theorem State.entered_xw : (s.entered h).xw = none := rfl
@[simp] theorem State.entered_raised : (s.entered h).raised = false := rfl
@[simp] theorem State.entered_lastEntryHigh : (s.entered h).lastEntryHigh = h := rfl
@[simp] theorem State.entered_dir : (s.entered h).dir = s.dir := rfl
@[simp] theorem State.entered_rsr : (s.entered h).rsr = s.rsr := rfl
@[simp] theorem State.entered_icr : (s.entered h).icr = s.icr := rfl
@[simp] theorem State.entered_imr : (s.entered h).imr = s.imr := rfl
@[simp] theorem State.entered_iodce : (s.entered h).iodce = s.iodce := rfl
@[simp] theorem State.entered_sync : (s.entered h).sync = s.sync := rfl
@[simp] theorem State.entered_protection : (s.entered h).protection = s.protection := rfl
@[simp] theorem State.entered_bar : (s.entered h).bar = s.bar := rfl
@[simp] theorem State.entered_switches : (s.entered h).switches = s.switches := rfl
@[simp] theorem State.entered_lights : (s.entered h).lights = s.lights := rfl
@[simp] theorem State.entered_attention : (s.entered h).attention = s.attention := rfl
@[simp] theorem State.entered_attentionMask : (s.entered h).attentionMask = s.attentionMask := rfl
@[simp] theorem State.entered_stopMask : (s.entered h).stopMask = s.stopMask := rfl
@[simp] theorem State.entered_hostInterrupt : (s.entered h).hostInterrupt = (s.hostInterrupt && !h) := rfl
@[simp] theorem State.entered_mm : (s.entered h).mm = s.mm := rfl
@[simp] theorem State.entered_mdir : (s.entered h).mdir = s.mdir := rfl
@[simp] theorem State.entered_cd : (s.entered h).cd = s.cd := rfl
@[simp] theorem State.entered_queue : (s.entered h).queue = s.queue := rfl
@[simp] theorem State.entered_scope : (s.entered h).scope = s.scope := rfl
@[simp] theorem State.entered_mem : (s.entered h).mem = s.mem := rfl
@[simp] theorem State.entered_params : (s.entered h).params = s.params := rfl
@[simp] theorem State.entered_inputs : (s.entered h).inputs = s.inputs := rfl
@[simp] theorem State.entered_turns : (s.entered h).turns = s.turns := rfl
@[simp] theorem State.entered_hostSeen : (s.entered h).hostSeen = s.hostSeen := rfl
@[simp] theorem State.entered_freeIx : (s.entered h).freeIx = s.freeIx := rfl

end

/-! ### useFree -/

section

variable (s : State) (n : Nat)

@[simp] theorem State.useFree_regs : (s.useFree n).regs = s.regs := rfl
@[simp] theorem State.useFree_pc : (s.useFree n).pc = s.pc := rfl
@[simp] theorem State.useFree_mode : (s.useFree n).mode = s.mode := rfl
@[simp] theorem State.useFree_pendUser : (s.useFree n).pendUser = s.pendUser := rfl
@[simp] theorem State.useFree_pendIon : (s.useFree n).pendIon = s.pendIon := rfl
@[simp] theorem State.useFree_lockLo : (s.useFree n).lockLo = s.lockLo := rfl
@[simp] theorem State.useFree_lockHi : (s.useFree n).lockHi = s.lockHi := rfl
@[simp] theorem State.useFree_sleeping : (s.useFree n).sleeping = s.sleeping := rfl
@[simp] theorem State.useFree_protFF : (s.useFree n).protFF = s.protFF := rfl
@[simp] theorem State.useFree_xw : (s.useFree n).xw = s.xw := rfl
@[simp] theorem State.useFree_raised : (s.useFree n).raised = s.raised := rfl
@[simp] theorem State.useFree_lastEntryHigh : (s.useFree n).lastEntryHigh = s.lastEntryHigh := rfl
@[simp] theorem State.useFree_dir : (s.useFree n).dir = s.dir := rfl
@[simp] theorem State.useFree_rsr : (s.useFree n).rsr = s.rsr := rfl
@[simp] theorem State.useFree_icr : (s.useFree n).icr = s.icr := rfl
@[simp] theorem State.useFree_imr : (s.useFree n).imr = s.imr := rfl
@[simp] theorem State.useFree_iodce : (s.useFree n).iodce = s.iodce := rfl
@[simp] theorem State.useFree_sync : (s.useFree n).sync = s.sync := rfl
@[simp] theorem State.useFree_protection : (s.useFree n).protection = s.protection := rfl
@[simp] theorem State.useFree_bar : (s.useFree n).bar = s.bar := rfl
@[simp] theorem State.useFree_switches : (s.useFree n).switches = s.switches := rfl
@[simp] theorem State.useFree_lights : (s.useFree n).lights = s.lights := rfl
@[simp] theorem State.useFree_attention : (s.useFree n).attention = s.attention := rfl
@[simp] theorem State.useFree_attentionMask : (s.useFree n).attentionMask = s.attentionMask := rfl
@[simp] theorem State.useFree_stopMask : (s.useFree n).stopMask = s.stopMask := rfl
@[simp] theorem State.useFree_hostInterrupt : (s.useFree n).hostInterrupt = s.hostInterrupt := rfl
@[simp] theorem State.useFree_mm : (s.useFree n).mm = s.mm := rfl
@[simp] theorem State.useFree_mdir : (s.useFree n).mdir = s.mdir := rfl
@[simp] theorem State.useFree_cd : (s.useFree n).cd = s.cd := rfl
@[simp] theorem State.useFree_queue : (s.useFree n).queue = s.queue := rfl
@[simp] theorem State.useFree_scope : (s.useFree n).scope = s.scope := rfl
@[simp] theorem State.useFree_mem : (s.useFree n).mem = s.mem := rfl
@[simp] theorem State.useFree_params : (s.useFree n).params = s.params := rfl
@[simp] theorem State.useFree_inputs : (s.useFree n).inputs = s.inputs := rfl
@[simp] theorem State.useFree_turns : (s.useFree n).turns = s.turns := rfl
@[simp] theorem State.useFree_hostSeen : (s.useFree n).hostSeen = s.hostSeen := rfl
@[simp] theorem State.useFree_freeIx : (s.useFree n).freeIx = s.freeIx + n := rfl

end

/-! ### setMm -/

section

variable (s : State) (a : DevAddr) (c : Fin 4) (v : Word)

@[simp] theorem State.setMm_regs : (s.setMm a c v).regs = s.regs := rfl
@[simp] theorem State.setMm_pc : (s.setMm a c v).pc = s.pc := rfl
@[simp] theorem State.setMm_mode : (s.setMm a c v).mode = s.mode := rfl
@[simp] theorem State.setMm_pendUser : (s.setMm a c v).pendUser = s.pendUser := rfl
@[simp] theorem State.setMm_pendIon : (s.setMm a c v).pendIon = s.pendIon := rfl
@[simp] theorem State.setMm_lockLo : (s.setMm a c v).lockLo = s.lockLo := rfl
@[simp] theorem State.setMm_lockHi : (s.setMm a c v).lockHi = s.lockHi := rfl
@[simp] theorem State.setMm_sleeping : (s.setMm a c v).sleeping = s.sleeping := rfl
@[simp] theorem State.setMm_protFF : (s.setMm a c v).protFF = s.protFF := rfl
@[simp] theorem State.setMm_xw : (s.setMm a c v).xw = s.xw := rfl
@[simp] theorem State.setMm_raised : (s.setMm a c v).raised = s.raised := rfl
@[simp] theorem State.setMm_lastEntryHigh : (s.setMm a c v).lastEntryHigh = s.lastEntryHigh := rfl
@[simp] theorem State.setMm_dir : (s.setMm a c v).dir = s.dir := rfl
@[simp] theorem State.setMm_rsr : (s.setMm a c v).rsr = s.rsr := rfl
@[simp] theorem State.setMm_icr : (s.setMm a c v).icr = s.icr := rfl
@[simp] theorem State.setMm_imr : (s.setMm a c v).imr = s.imr := rfl
@[simp] theorem State.setMm_iodce : (s.setMm a c v).iodce = s.iodce := rfl
@[simp] theorem State.setMm_sync : (s.setMm a c v).sync = s.sync := rfl
@[simp] theorem State.setMm_protection : (s.setMm a c v).protection = s.protection := rfl
@[simp] theorem State.setMm_bar : (s.setMm a c v).bar = s.bar := rfl
@[simp] theorem State.setMm_switches : (s.setMm a c v).switches = s.switches := rfl
@[simp] theorem State.setMm_lights : (s.setMm a c v).lights = s.lights := rfl
@[simp] theorem State.setMm_attention : (s.setMm a c v).attention = s.attention := rfl
@[simp] theorem State.setMm_attentionMask : (s.setMm a c v).attentionMask = s.attentionMask := rfl
@[simp] theorem State.setMm_stopMask : (s.setMm a c v).stopMask = s.stopMask := rfl
@[simp] theorem State.setMm_hostInterrupt : (s.setMm a c v).hostInterrupt = s.hostInterrupt := rfl
@[simp] theorem State.setMm_mdir : (s.setMm a c v).mdir = s.mdir := rfl
@[simp] theorem State.setMm_cd : (s.setMm a c v).cd = s.cd := rfl
@[simp] theorem State.setMm_queue : (s.setMm a c v).queue = s.queue := rfl
@[simp] theorem State.setMm_scope : (s.setMm a c v).scope = s.scope := rfl
@[simp] theorem State.setMm_mem : (s.setMm a c v).mem = s.mem := rfl
@[simp] theorem State.setMm_params : (s.setMm a c v).params = s.params := rfl
@[simp] theorem State.setMm_inputs : (s.setMm a c v).inputs = s.inputs := rfl
@[simp] theorem State.setMm_turns : (s.setMm a c v).turns = s.turns := rfl
@[simp] theorem State.setMm_hostSeen : (s.setMm a c v).hostSeen = s.hostSeen := rfl
@[simp] theorem State.setMm_freeIx : (s.setMm a c v).freeIx = s.freeIx := rfl

end

/-! ### loadMdir -/

section

variable (s : State) (d0 d1 : Word)

@[simp] theorem State.loadMdir_regs : (s.loadMdir d0 d1).regs = s.regs := rfl
@[simp] theorem State.loadMdir_pc : (s.loadMdir d0 d1).pc = s.pc := rfl
@[simp] theorem State.loadMdir_mode : (s.loadMdir d0 d1).mode = s.mode := rfl
@[simp] theorem State.loadMdir_pendUser : (s.loadMdir d0 d1).pendUser = s.pendUser := rfl
@[simp] theorem State.loadMdir_pendIon : (s.loadMdir d0 d1).pendIon = s.pendIon := rfl
@[simp] theorem State.loadMdir_lockLo : (s.loadMdir d0 d1).lockLo = s.lockLo := rfl
@[simp] theorem State.loadMdir_lockHi : (s.loadMdir d0 d1).lockHi = s.lockHi := rfl
@[simp] theorem State.loadMdir_sleeping : (s.loadMdir d0 d1).sleeping = s.sleeping := rfl
@[simp] theorem State.loadMdir_protFF : (s.loadMdir d0 d1).protFF = s.protFF := rfl
@[simp] theorem State.loadMdir_xw : (s.loadMdir d0 d1).xw = s.xw := rfl
@[simp] theorem State.loadMdir_raised : (s.loadMdir d0 d1).raised = s.raised := rfl
@[simp] theorem State.loadMdir_lastEntryHigh : (s.loadMdir d0 d1).lastEntryHigh = s.lastEntryHigh := rfl
@[simp] theorem State.loadMdir_dir : (s.loadMdir d0 d1).dir = s.dir := rfl
@[simp] theorem State.loadMdir_rsr : (s.loadMdir d0 d1).rsr = s.rsr := rfl
@[simp] theorem State.loadMdir_icr : (s.loadMdir d0 d1).icr = s.icr := rfl
@[simp] theorem State.loadMdir_imr : (s.loadMdir d0 d1).imr = s.imr := rfl
@[simp] theorem State.loadMdir_iodce : (s.loadMdir d0 d1).iodce = s.iodce := rfl
@[simp] theorem State.loadMdir_sync : (s.loadMdir d0 d1).sync = s.sync := rfl
@[simp] theorem State.loadMdir_protection : (s.loadMdir d0 d1).protection = s.protection := rfl
@[simp] theorem State.loadMdir_bar : (s.loadMdir d0 d1).bar = s.bar := rfl
@[simp] theorem State.loadMdir_switches : (s.loadMdir d0 d1).switches = s.switches := rfl
@[simp] theorem State.loadMdir_lights : (s.loadMdir d0 d1).lights = s.lights := rfl
@[simp] theorem State.loadMdir_attention : (s.loadMdir d0 d1).attention = s.attention := rfl
@[simp] theorem State.loadMdir_attentionMask : (s.loadMdir d0 d1).attentionMask = s.attentionMask := rfl
@[simp] theorem State.loadMdir_stopMask : (s.loadMdir d0 d1).stopMask = s.stopMask := rfl
@[simp] theorem State.loadMdir_hostInterrupt : (s.loadMdir d0 d1).hostInterrupt = s.hostInterrupt := rfl
@[simp] theorem State.loadMdir_mm : (s.loadMdir d0 d1).mm = s.mm := rfl
@[simp] theorem State.loadMdir_mdir : (s.loadMdir d0 d1).mdir = mdirLoad s.params.mdirLayout s.mdir d0 d1 := rfl
@[simp] theorem State.loadMdir_cd : (s.loadMdir d0 d1).cd = s.cd := rfl
@[simp] theorem State.loadMdir_queue : (s.loadMdir d0 d1).queue = s.queue := rfl
@[simp] theorem State.loadMdir_scope : (s.loadMdir d0 d1).scope = s.scope := rfl
@[simp] theorem State.loadMdir_mem : (s.loadMdir d0 d1).mem = s.mem := rfl
@[simp] theorem State.loadMdir_params : (s.loadMdir d0 d1).params = s.params := rfl
@[simp] theorem State.loadMdir_inputs : (s.loadMdir d0 d1).inputs = s.inputs := rfl
@[simp] theorem State.loadMdir_turns : (s.loadMdir d0 d1).turns = s.turns := rfl
@[simp] theorem State.loadMdir_hostSeen : (s.loadMdir d0 d1).hostSeen = s.hostSeen := rfl
@[simp] theorem State.loadMdir_freeIx : (s.loadMdir d0 d1).freeIx = s.freeIx := rfl

end

/-! ### setHit -/

section

variable (s : State)

@[simp] theorem State.setHit_regs : (s.setHit).regs = s.regs := rfl
@[simp] theorem State.setHit_pc : (s.setHit).pc = s.pc := rfl
@[simp] theorem State.setHit_mode : (s.setHit).mode = s.mode := rfl
@[simp] theorem State.setHit_pendUser : (s.setHit).pendUser = s.pendUser := rfl
@[simp] theorem State.setHit_pendIon : (s.setHit).pendIon = s.pendIon := rfl
@[simp] theorem State.setHit_lockLo : (s.setHit).lockLo = s.lockLo := rfl
@[simp] theorem State.setHit_lockHi : (s.setHit).lockHi = s.lockHi := rfl
@[simp] theorem State.setHit_sleeping : (s.setHit).sleeping = s.sleeping := rfl
@[simp] theorem State.setHit_protFF : (s.setHit).protFF = s.protFF := rfl
@[simp] theorem State.setHit_xw : (s.setHit).xw = s.xw := rfl
@[simp] theorem State.setHit_raised : (s.setHit).raised = s.raised := rfl
@[simp] theorem State.setHit_lastEntryHigh : (s.setHit).lastEntryHigh = s.lastEntryHigh := rfl
@[simp] theorem State.setHit_dir : (s.setHit).dir = setBitAt s.dir 21 true := rfl
@[simp] theorem State.setHit_rsr : (s.setHit).rsr = s.rsr := rfl
@[simp] theorem State.setHit_icr : (s.setHit).icr = s.icr := rfl
@[simp] theorem State.setHit_imr : (s.setHit).imr = s.imr := rfl
@[simp] theorem State.setHit_iodce : (s.setHit).iodce = s.iodce := rfl
@[simp] theorem State.setHit_sync : (s.setHit).sync = s.sync := rfl
@[simp] theorem State.setHit_protection : (s.setHit).protection = s.protection := rfl
@[simp] theorem State.setHit_bar : (s.setHit).bar = s.bar := rfl
@[simp] theorem State.setHit_switches : (s.setHit).switches = s.switches := rfl
@[simp] theorem State.setHit_lights : (s.setHit).lights = s.lights := rfl
@[simp] theorem State.setHit_attention : (s.setHit).attention = s.attention := rfl
@[simp] theorem State.setHit_attentionMask : (s.setHit).attentionMask = s.attentionMask := rfl
@[simp] theorem State.setHit_stopMask : (s.setHit).stopMask = s.stopMask := rfl
@[simp] theorem State.setHit_hostInterrupt : (s.setHit).hostInterrupt = s.hostInterrupt := rfl
@[simp] theorem State.setHit_mm : (s.setHit).mm = s.mm := rfl
@[simp] theorem State.setHit_mdir : (s.setHit).mdir = s.mdir := rfl
@[simp] theorem State.setHit_cd : (s.setHit).cd = s.cd := rfl
@[simp] theorem State.setHit_queue : (s.setHit).queue = s.queue := rfl
@[simp] theorem State.setHit_scope : (s.setHit).scope = s.scope := rfl
@[simp] theorem State.setHit_mem : (s.setHit).mem = s.mem := rfl
@[simp] theorem State.setHit_params : (s.setHit).params = s.params := rfl
@[simp] theorem State.setHit_inputs : (s.setHit).inputs = s.inputs := rfl
@[simp] theorem State.setHit_turns : (s.setHit).turns = s.turns := rfl
@[simp] theorem State.setHit_hostSeen : (s.setHit).hostSeen = s.hostSeen := rfl
@[simp] theorem State.setHit_freeIx : (s.setHit).freeIx = s.freeIx := rfl

end

/-! ### setAic -/

section

variable (s : State) (a : DevAddr)

@[simp] theorem State.setAic_regs : (s.setAic a).regs = s.regs := rfl
@[simp] theorem State.setAic_pc : (s.setAic a).pc = s.pc := rfl
@[simp] theorem State.setAic_mode : (s.setAic a).mode = s.mode := rfl
@[simp] theorem State.setAic_pendUser : (s.setAic a).pendUser = s.pendUser := rfl
@[simp] theorem State.setAic_pendIon : (s.setAic a).pendIon = s.pendIon := rfl
@[simp] theorem State.setAic_lockLo : (s.setAic a).lockLo = s.lockLo := rfl
@[simp] theorem State.setAic_lockHi : (s.setAic a).lockHi = s.lockHi := rfl
@[simp] theorem State.setAic_sleeping : (s.setAic a).sleeping = s.sleeping := rfl
@[simp] theorem State.setAic_protFF : (s.setAic a).protFF = s.protFF := rfl
@[simp] theorem State.setAic_xw : (s.setAic a).xw = s.xw := rfl
@[simp] theorem State.setAic_raised : (s.setAic a).raised = s.raised := rfl
@[simp] theorem State.setAic_lastEntryHigh : (s.setAic a).lastEntryHigh = s.lastEntryHigh := rfl
@[simp] theorem State.setAic_rsr : (s.setAic a).rsr = s.rsr := rfl
@[simp] theorem State.setAic_icr : (s.setAic a).icr = s.icr := rfl
@[simp] theorem State.setAic_imr : (s.setAic a).imr = s.imr := rfl
@[simp] theorem State.setAic_iodce : (s.setAic a).iodce = s.iodce := rfl
@[simp] theorem State.setAic_sync : (s.setAic a).sync = s.sync := rfl
@[simp] theorem State.setAic_protection : (s.setAic a).protection = s.protection := rfl
@[simp] theorem State.setAic_bar : (s.setAic a).bar = s.bar := rfl
@[simp] theorem State.setAic_switches : (s.setAic a).switches = s.switches := rfl
@[simp] theorem State.setAic_lights : (s.setAic a).lights = s.lights := rfl
@[simp] theorem State.setAic_attention : (s.setAic a).attention = s.attention := rfl
@[simp] theorem State.setAic_attentionMask : (s.setAic a).attentionMask = s.attentionMask := rfl
@[simp] theorem State.setAic_stopMask : (s.setAic a).stopMask = s.stopMask := rfl
@[simp] theorem State.setAic_hostInterrupt : (s.setAic a).hostInterrupt = s.hostInterrupt := rfl
@[simp] theorem State.setAic_mm : (s.setAic a).mm = s.mm := rfl
@[simp] theorem State.setAic_mdir : (s.setAic a).mdir = s.mdir := rfl
@[simp] theorem State.setAic_cd : (s.setAic a).cd = s.cd := rfl
@[simp] theorem State.setAic_queue : (s.setAic a).queue = s.queue := rfl
@[simp] theorem State.setAic_scope : (s.setAic a).scope = s.scope := rfl
@[simp] theorem State.setAic_mem : (s.setAic a).mem = s.mem := rfl
@[simp] theorem State.setAic_params : (s.setAic a).params = s.params := rfl
@[simp] theorem State.setAic_inputs : (s.setAic a).inputs = s.inputs := rfl
@[simp] theorem State.setAic_turns : (s.setAic a).turns = s.turns := rfl
@[simp] theorem State.setAic_hostSeen : (s.setAic a).hostSeen = s.hostSeen := rfl
@[simp] theorem State.setAic_freeIx : (s.setAic a).freeIx = s.freeIx := rfl

end

/-! ### emit -/

section

variable (s : State) (k : EmitKind) (x y z : Word)

@[simp] theorem State.emit_regs : (s.emit k x y z).regs = s.regs := rfl
@[simp] theorem State.emit_pc : (s.emit k x y z).pc = s.pc := rfl
@[simp] theorem State.emit_mode : (s.emit k x y z).mode = s.mode := rfl
@[simp] theorem State.emit_pendUser : (s.emit k x y z).pendUser = s.pendUser := rfl
@[simp] theorem State.emit_pendIon : (s.emit k x y z).pendIon = s.pendIon := rfl
@[simp] theorem State.emit_lockLo : (s.emit k x y z).lockLo = s.lockLo := rfl
@[simp] theorem State.emit_lockHi : (s.emit k x y z).lockHi = s.lockHi := rfl
@[simp] theorem State.emit_sleeping : (s.emit k x y z).sleeping = s.sleeping := rfl
@[simp] theorem State.emit_protFF : (s.emit k x y z).protFF = s.protFF := rfl
@[simp] theorem State.emit_xw : (s.emit k x y z).xw = s.xw := rfl
@[simp] theorem State.emit_raised : (s.emit k x y z).raised = s.raised := rfl
@[simp] theorem State.emit_lastEntryHigh : (s.emit k x y z).lastEntryHigh = s.lastEntryHigh := rfl
@[simp] theorem State.emit_dir : (s.emit k x y z).dir = s.dir := rfl
@[simp] theorem State.emit_rsr : (s.emit k x y z).rsr = s.rsr := rfl
@[simp] theorem State.emit_icr : (s.emit k x y z).icr = s.icr := rfl
@[simp] theorem State.emit_imr : (s.emit k x y z).imr = s.imr := rfl
@[simp] theorem State.emit_iodce : (s.emit k x y z).iodce = s.iodce := rfl
@[simp] theorem State.emit_sync : (s.emit k x y z).sync = s.sync := rfl
@[simp] theorem State.emit_protection : (s.emit k x y z).protection = s.protection := rfl
@[simp] theorem State.emit_bar : (s.emit k x y z).bar = s.bar := rfl
@[simp] theorem State.emit_switches : (s.emit k x y z).switches = s.switches := rfl
@[simp] theorem State.emit_lights : (s.emit k x y z).lights = s.lights := rfl
@[simp] theorem State.emit_attention : (s.emit k x y z).attention = s.attention := rfl
@[simp] theorem State.emit_attentionMask : (s.emit k x y z).attentionMask = s.attentionMask := rfl
@[simp] theorem State.emit_stopMask : (s.emit k x y z).stopMask = s.stopMask := rfl
@[simp] theorem State.emit_hostInterrupt : (s.emit k x y z).hostInterrupt = s.hostInterrupt := rfl
@[simp] theorem State.emit_mm : (s.emit k x y z).mm = s.mm := rfl
@[simp] theorem State.emit_mdir : (s.emit k x y z).mdir = s.mdir := rfl
@[simp] theorem State.emit_cd : (s.emit k x y z).cd = s.cd := rfl
@[simp] theorem State.emit_queue : (s.emit k x y z).queue = s.queue := rfl
@[simp] theorem State.emit_mem : (s.emit k x y z).mem = s.mem := rfl
@[simp] theorem State.emit_params : (s.emit k x y z).params = s.params := rfl
@[simp] theorem State.emit_inputs : (s.emit k x y z).inputs = s.inputs := rfl
@[simp] theorem State.emit_turns : (s.emit k x y z).turns = s.turns := rfl
@[simp] theorem State.emit_hostSeen : (s.emit k x y z).hostSeen = s.hostSeen := rfl
@[simp] theorem State.emit_freeIx : (s.emit k x y z).freeIx = s.freeIx := rfl

end

/-! ### setRsrAddress -/

section

variable (s : State) (a : DevAddr)

@[simp] theorem State.setRsrAddress_regs : (s.setRsrAddress a).regs = s.regs := rfl
@[simp] theorem State.setRsrAddress_pc : (s.setRsrAddress a).pc = s.pc := rfl
@[simp] theorem State.setRsrAddress_mode : (s.setRsrAddress a).mode = s.mode := rfl
@[simp] theorem State.setRsrAddress_pendUser : (s.setRsrAddress a).pendUser = s.pendUser := rfl
@[simp] theorem State.setRsrAddress_pendIon : (s.setRsrAddress a).pendIon = s.pendIon := rfl
@[simp] theorem State.setRsrAddress_lockLo : (s.setRsrAddress a).lockLo = s.lockLo := rfl
@[simp] theorem State.setRsrAddress_lockHi : (s.setRsrAddress a).lockHi = s.lockHi := rfl
@[simp] theorem State.setRsrAddress_sleeping : (s.setRsrAddress a).sleeping = s.sleeping := rfl
@[simp] theorem State.setRsrAddress_protFF : (s.setRsrAddress a).protFF = s.protFF := rfl
@[simp] theorem State.setRsrAddress_xw : (s.setRsrAddress a).xw = s.xw := rfl
@[simp] theorem State.setRsrAddress_raised : (s.setRsrAddress a).raised = s.raised := rfl
@[simp] theorem State.setRsrAddress_lastEntryHigh : (s.setRsrAddress a).lastEntryHigh = s.lastEntryHigh := rfl
@[simp] theorem State.setRsrAddress_dir : (s.setRsrAddress a).dir = s.dir := rfl
@[simp] theorem State.setRsrAddress_icr : (s.setRsrAddress a).icr = s.icr := rfl
@[simp] theorem State.setRsrAddress_imr : (s.setRsrAddress a).imr = s.imr := rfl
@[simp] theorem State.setRsrAddress_iodce : (s.setRsrAddress a).iodce = s.iodce := rfl
@[simp] theorem State.setRsrAddress_sync : (s.setRsrAddress a).sync = s.sync := rfl
@[simp] theorem State.setRsrAddress_protection : (s.setRsrAddress a).protection = s.protection := rfl
@[simp] theorem State.setRsrAddress_bar : (s.setRsrAddress a).bar = s.bar := rfl
@[simp] theorem State.setRsrAddress_switches : (s.setRsrAddress a).switches = s.switches := rfl
@[simp] theorem State.setRsrAddress_lights : (s.setRsrAddress a).lights = s.lights := rfl
@[simp] theorem State.setRsrAddress_attention : (s.setRsrAddress a).attention = s.attention := rfl
@[simp] theorem State.setRsrAddress_attentionMask : (s.setRsrAddress a).attentionMask = s.attentionMask := rfl
@[simp] theorem State.setRsrAddress_stopMask : (s.setRsrAddress a).stopMask = s.stopMask := rfl
@[simp] theorem State.setRsrAddress_hostInterrupt : (s.setRsrAddress a).hostInterrupt = s.hostInterrupt := rfl
@[simp] theorem State.setRsrAddress_mm : (s.setRsrAddress a).mm = s.mm := rfl
@[simp] theorem State.setRsrAddress_mdir : (s.setRsrAddress a).mdir = s.mdir := rfl
@[simp] theorem State.setRsrAddress_cd : (s.setRsrAddress a).cd = s.cd := rfl
@[simp] theorem State.setRsrAddress_queue : (s.setRsrAddress a).queue = s.queue := rfl
@[simp] theorem State.setRsrAddress_scope : (s.setRsrAddress a).scope = s.scope := rfl
@[simp] theorem State.setRsrAddress_mem : (s.setRsrAddress a).mem = s.mem := rfl
@[simp] theorem State.setRsrAddress_params : (s.setRsrAddress a).params = s.params := rfl
@[simp] theorem State.setRsrAddress_inputs : (s.setRsrAddress a).inputs = s.inputs := rfl
@[simp] theorem State.setRsrAddress_turns : (s.setRsrAddress a).turns = s.turns := rfl
@[simp] theorem State.setRsrAddress_hostSeen : (s.setRsrAddress a).hostSeen = s.hostSeen := rfl
@[simp] theorem State.setRsrAddress_freeIx : (s.setRsrAddress a).freeIx = s.freeIx := rfl

end

/-! ### endRepeat -/

section

variable (s : State)

@[simp] theorem State.endRepeat_regs : (s.endRepeat).regs = s.regs := rfl
@[simp] theorem State.endRepeat_pc : (s.endRepeat).pc = s.pc := rfl
@[simp] theorem State.endRepeat_mode : (s.endRepeat).mode = s.mode := rfl
@[simp] theorem State.endRepeat_pendUser : (s.endRepeat).pendUser = s.pendUser := rfl
@[simp] theorem State.endRepeat_pendIon : (s.endRepeat).pendIon = s.pendIon := rfl
@[simp] theorem State.endRepeat_lockLo : (s.endRepeat).lockLo = s.lockLo := rfl
@[simp] theorem State.endRepeat_lockHi : (s.endRepeat).lockHi = s.lockHi := rfl
@[simp] theorem State.endRepeat_sleeping : (s.endRepeat).sleeping = s.sleeping := rfl
@[simp] theorem State.endRepeat_protFF : (s.endRepeat).protFF = s.protFF := rfl
@[simp] theorem State.endRepeat_xw : (s.endRepeat).xw = s.xw := rfl
@[simp] theorem State.endRepeat_raised : (s.endRepeat).raised = s.raised := rfl
@[simp] theorem State.endRepeat_lastEntryHigh : (s.endRepeat).lastEntryHigh = s.lastEntryHigh := rfl
@[simp] theorem State.endRepeat_dir : (s.endRepeat).dir = s.dir := rfl
@[simp] theorem State.endRepeat_rsr : (s.endRepeat).rsr = setBitAt s.rsr 23 false := rfl
@[simp] theorem State.endRepeat_icr : (s.endRepeat).icr = s.icr := rfl
@[simp] theorem State.endRepeat_imr : (s.endRepeat).imr = s.imr := rfl
@[simp] theorem State.endRepeat_iodce : (s.endRepeat).iodce = s.iodce := rfl
@[simp] theorem State.endRepeat_sync : (s.endRepeat).sync = s.sync := rfl
@[simp] theorem State.endRepeat_protection : (s.endRepeat).protection = s.protection := rfl
@[simp] theorem State.endRepeat_bar : (s.endRepeat).bar = s.bar := rfl
@[simp] theorem State.endRepeat_switches : (s.endRepeat).switches = s.switches := rfl
@[simp] theorem State.endRepeat_lights : (s.endRepeat).lights = s.lights := rfl
@[simp] theorem State.endRepeat_attention : (s.endRepeat).attention = s.attention := rfl
@[simp] theorem State.endRepeat_attentionMask : (s.endRepeat).attentionMask = s.attentionMask := rfl
@[simp] theorem State.endRepeat_stopMask : (s.endRepeat).stopMask = s.stopMask := rfl
@[simp] theorem State.endRepeat_hostInterrupt : (s.endRepeat).hostInterrupt = s.hostInterrupt := rfl
@[simp] theorem State.endRepeat_mm : (s.endRepeat).mm = s.mm := rfl
@[simp] theorem State.endRepeat_mdir : (s.endRepeat).mdir = s.mdir := rfl
@[simp] theorem State.endRepeat_cd : (s.endRepeat).cd = s.cd := rfl
@[simp] theorem State.endRepeat_queue : (s.endRepeat).queue = s.queue := rfl
@[simp] theorem State.endRepeat_scope : (s.endRepeat).scope = s.scope := rfl
@[simp] theorem State.endRepeat_mem : (s.endRepeat).mem = s.mem := rfl
@[simp] theorem State.endRepeat_params : (s.endRepeat).params = s.params := rfl
@[simp] theorem State.endRepeat_inputs : (s.endRepeat).inputs = s.inputs := rfl
@[simp] theorem State.endRepeat_turns : (s.endRepeat).turns = s.turns := rfl
@[simp] theorem State.endRepeat_hostSeen : (s.endRepeat).hostSeen = s.hostSeen := rfl
@[simp] theorem State.endRepeat_freeIx : (s.endRepeat).freeIx = s.freeIx := rfl

end

/-! ### setRsrFsm -/

section

variable (s : State) (f1 : Fsm1) (f2 : Fsm2)

@[simp] theorem State.setRsrFsm_regs : (s.setRsrFsm f1 f2).regs = s.regs := rfl
@[simp] theorem State.setRsrFsm_pc : (s.setRsrFsm f1 f2).pc = s.pc := rfl
@[simp] theorem State.setRsrFsm_mode : (s.setRsrFsm f1 f2).mode = s.mode := rfl
@[simp] theorem State.setRsrFsm_pendUser : (s.setRsrFsm f1 f2).pendUser = s.pendUser := rfl
@[simp] theorem State.setRsrFsm_pendIon : (s.setRsrFsm f1 f2).pendIon = s.pendIon := rfl
@[simp] theorem State.setRsrFsm_lockLo : (s.setRsrFsm f1 f2).lockLo = s.lockLo := rfl
@[simp] theorem State.setRsrFsm_lockHi : (s.setRsrFsm f1 f2).lockHi = s.lockHi := rfl
@[simp] theorem State.setRsrFsm_sleeping : (s.setRsrFsm f1 f2).sleeping = s.sleeping := rfl
@[simp] theorem State.setRsrFsm_protFF : (s.setRsrFsm f1 f2).protFF = s.protFF := rfl
@[simp] theorem State.setRsrFsm_xw : (s.setRsrFsm f1 f2).xw = s.xw := rfl
@[simp] theorem State.setRsrFsm_raised : (s.setRsrFsm f1 f2).raised = s.raised := rfl
@[simp] theorem State.setRsrFsm_lastEntryHigh : (s.setRsrFsm f1 f2).lastEntryHigh = s.lastEntryHigh := rfl
@[simp] theorem State.setRsrFsm_dir : (s.setRsrFsm f1 f2).dir = s.dir := rfl
@[simp] theorem State.setRsrFsm_icr : (s.setRsrFsm f1 f2).icr = s.icr := rfl
@[simp] theorem State.setRsrFsm_imr : (s.setRsrFsm f1 f2).imr = s.imr := rfl
@[simp] theorem State.setRsrFsm_iodce : (s.setRsrFsm f1 f2).iodce = s.iodce := rfl
@[simp] theorem State.setRsrFsm_sync : (s.setRsrFsm f1 f2).sync = s.sync := rfl
@[simp] theorem State.setRsrFsm_protection : (s.setRsrFsm f1 f2).protection = s.protection := rfl
@[simp] theorem State.setRsrFsm_bar : (s.setRsrFsm f1 f2).bar = s.bar := rfl
@[simp] theorem State.setRsrFsm_switches : (s.setRsrFsm f1 f2).switches = s.switches := rfl
@[simp] theorem State.setRsrFsm_lights : (s.setRsrFsm f1 f2).lights = s.lights := rfl
@[simp] theorem State.setRsrFsm_attention : (s.setRsrFsm f1 f2).attention = s.attention := rfl
@[simp] theorem State.setRsrFsm_attentionMask : (s.setRsrFsm f1 f2).attentionMask = s.attentionMask := rfl
@[simp] theorem State.setRsrFsm_stopMask : (s.setRsrFsm f1 f2).stopMask = s.stopMask := rfl
@[simp] theorem State.setRsrFsm_hostInterrupt : (s.setRsrFsm f1 f2).hostInterrupt = s.hostInterrupt := rfl
@[simp] theorem State.setRsrFsm_mm : (s.setRsrFsm f1 f2).mm = s.mm := rfl
@[simp] theorem State.setRsrFsm_mdir : (s.setRsrFsm f1 f2).mdir = s.mdir := rfl
@[simp] theorem State.setRsrFsm_cd : (s.setRsrFsm f1 f2).cd = s.cd := rfl
@[simp] theorem State.setRsrFsm_queue : (s.setRsrFsm f1 f2).queue = s.queue := rfl
@[simp] theorem State.setRsrFsm_scope : (s.setRsrFsm f1 f2).scope = s.scope := rfl
@[simp] theorem State.setRsrFsm_mem : (s.setRsrFsm f1 f2).mem = s.mem := rfl
@[simp] theorem State.setRsrFsm_params : (s.setRsrFsm f1 f2).params = s.params := rfl
@[simp] theorem State.setRsrFsm_inputs : (s.setRsrFsm f1 f2).inputs = s.inputs := rfl
@[simp] theorem State.setRsrFsm_turns : (s.setRsrFsm f1 f2).turns = s.turns := rfl
@[simp] theorem State.setRsrFsm_hostSeen : (s.setRsrFsm f1 f2).hostSeen = s.hostSeen := rfl
@[simp] theorem State.setRsrFsm_freeIx : (s.setRsrFsm f1 f2).freeIx = s.freeIx := rfl

end

/-! ### beginTransfer -/

section

variable (s : State) (u k : Bool) (n : Nat) (a : DevAddr)

@[simp] theorem State.beginTransfer_regs : (s.beginTransfer u k n a).regs = s.regs := rfl
@[simp] theorem State.beginTransfer_pc : (s.beginTransfer u k n a).pc = s.pc := rfl
@[simp] theorem State.beginTransfer_mode : (s.beginTransfer u k n a).mode = s.mode := rfl
@[simp] theorem State.beginTransfer_pendUser : (s.beginTransfer u k n a).pendUser = s.pendUser := rfl
@[simp] theorem State.beginTransfer_pendIon : (s.beginTransfer u k n a).pendIon = s.pendIon := rfl
@[simp] theorem State.beginTransfer_lockLo : (s.beginTransfer u k n a).lockLo = s.lockLo := rfl
@[simp] theorem State.beginTransfer_lockHi : (s.beginTransfer u k n a).lockHi = s.lockHi := rfl
@[simp] theorem State.beginTransfer_sleeping : (s.beginTransfer u k n a).sleeping = s.sleeping := rfl
@[simp] theorem State.beginTransfer_protFF : (s.beginTransfer u k n a).protFF = s.protFF := rfl
@[simp] theorem State.beginTransfer_xw : (s.beginTransfer u k n a).xw = s.xw := rfl
@[simp] theorem State.beginTransfer_raised : (s.beginTransfer u k n a).raised = s.raised := rfl
@[simp] theorem State.beginTransfer_lastEntryHigh : (s.beginTransfer u k n a).lastEntryHigh = s.lastEntryHigh := rfl
@[simp] theorem State.beginTransfer_dir : (s.beginTransfer u k n a).dir = s.dir := rfl
@[simp] theorem State.beginTransfer_icr : (s.beginTransfer u k n a).icr = s.icr := rfl
@[simp] theorem State.beginTransfer_imr : (s.beginTransfer u k n a).imr = s.imr := rfl
@[simp] theorem State.beginTransfer_iodce : (s.beginTransfer u k n a).iodce = s.iodce := rfl
@[simp] theorem State.beginTransfer_sync : (s.beginTransfer u k n a).sync = s.sync := rfl
@[simp] theorem State.beginTransfer_protection : (s.beginTransfer u k n a).protection = s.protection := rfl
@[simp] theorem State.beginTransfer_bar : (s.beginTransfer u k n a).bar = s.bar := rfl
@[simp] theorem State.beginTransfer_switches : (s.beginTransfer u k n a).switches = s.switches := rfl
@[simp] theorem State.beginTransfer_lights : (s.beginTransfer u k n a).lights = s.lights := rfl
@[simp] theorem State.beginTransfer_attention : (s.beginTransfer u k n a).attention = s.attention := rfl
@[simp] theorem State.beginTransfer_attentionMask : (s.beginTransfer u k n a).attentionMask = s.attentionMask := rfl
@[simp] theorem State.beginTransfer_stopMask : (s.beginTransfer u k n a).stopMask = s.stopMask := rfl
@[simp] theorem State.beginTransfer_hostInterrupt : (s.beginTransfer u k n a).hostInterrupt = s.hostInterrupt := rfl
@[simp] theorem State.beginTransfer_mm : (s.beginTransfer u k n a).mm = s.mm := rfl
@[simp] theorem State.beginTransfer_mdir : (s.beginTransfer u k n a).mdir = s.mdir := rfl
@[simp] theorem State.beginTransfer_cd : (s.beginTransfer u k n a).cd = s.cd := rfl
@[simp] theorem State.beginTransfer_queue : (s.beginTransfer u k n a).queue = s.queue := rfl
@[simp] theorem State.beginTransfer_scope : (s.beginTransfer u k n a).scope = s.scope := rfl
@[simp] theorem State.beginTransfer_mem : (s.beginTransfer u k n a).mem = s.mem := rfl
@[simp] theorem State.beginTransfer_params : (s.beginTransfer u k n a).params = s.params := rfl
@[simp] theorem State.beginTransfer_inputs : (s.beginTransfer u k n a).inputs = s.inputs := rfl
@[simp] theorem State.beginTransfer_turns : (s.beginTransfer u k n a).turns = s.turns := rfl
@[simp] theorem State.beginTransfer_hostSeen : (s.beginTransfer u k n a).hostSeen = s.hostSeen := rfl
@[simp] theorem State.beginTransfer_freeIx : (s.beginTransfer u k n a).freeIx = s.freeIx := rfl

end

/-! ### beginDraw -/

section

variable (s : State) (f1 : Fsm1) (f2 : Fsm2)

@[simp] theorem State.beginDraw_regs : (s.beginDraw f1 f2).regs = s.regs := rfl
@[simp] theorem State.beginDraw_pc : (s.beginDraw f1 f2).pc = s.pc := rfl
@[simp] theorem State.beginDraw_mode : (s.beginDraw f1 f2).mode = s.mode := rfl
@[simp] theorem State.beginDraw_pendUser : (s.beginDraw f1 f2).pendUser = s.pendUser := rfl
@[simp] theorem State.beginDraw_pendIon : (s.beginDraw f1 f2).pendIon = s.pendIon := rfl
@[simp] theorem State.beginDraw_lockLo : (s.beginDraw f1 f2).lockLo = s.lockLo := rfl
@[simp] theorem State.beginDraw_lockHi : (s.beginDraw f1 f2).lockHi = s.lockHi := rfl
@[simp] theorem State.beginDraw_sleeping : (s.beginDraw f1 f2).sleeping = s.sleeping := rfl
@[simp] theorem State.beginDraw_protFF : (s.beginDraw f1 f2).protFF = s.protFF := rfl
@[simp] theorem State.beginDraw_xw : (s.beginDraw f1 f2).xw = s.xw := rfl
@[simp] theorem State.beginDraw_raised : (s.beginDraw f1 f2).raised = s.raised := rfl
@[simp] theorem State.beginDraw_lastEntryHigh : (s.beginDraw f1 f2).lastEntryHigh = s.lastEntryHigh := rfl
@[simp] theorem State.beginDraw_dir : (s.beginDraw f1 f2).dir = s.dir := rfl
@[simp] theorem State.beginDraw_icr : (s.beginDraw f1 f2).icr = s.icr := rfl
@[simp] theorem State.beginDraw_imr : (s.beginDraw f1 f2).imr = s.imr := rfl
@[simp] theorem State.beginDraw_iodce : (s.beginDraw f1 f2).iodce = s.iodce := rfl
@[simp] theorem State.beginDraw_sync : (s.beginDraw f1 f2).sync = s.sync := rfl
@[simp] theorem State.beginDraw_protection : (s.beginDraw f1 f2).protection = s.protection := rfl
@[simp] theorem State.beginDraw_bar : (s.beginDraw f1 f2).bar = s.bar := rfl
@[simp] theorem State.beginDraw_switches : (s.beginDraw f1 f2).switches = s.switches := rfl
@[simp] theorem State.beginDraw_lights : (s.beginDraw f1 f2).lights = s.lights := rfl
@[simp] theorem State.beginDraw_attention : (s.beginDraw f1 f2).attention = s.attention := rfl
@[simp] theorem State.beginDraw_attentionMask : (s.beginDraw f1 f2).attentionMask = s.attentionMask := rfl
@[simp] theorem State.beginDraw_stopMask : (s.beginDraw f1 f2).stopMask = s.stopMask := rfl
@[simp] theorem State.beginDraw_hostInterrupt : (s.beginDraw f1 f2).hostInterrupt = s.hostInterrupt := rfl
@[simp] theorem State.beginDraw_mm : (s.beginDraw f1 f2).mm = s.mm := rfl
@[simp] theorem State.beginDraw_mdir : (s.beginDraw f1 f2).mdir = s.mdir := rfl
@[simp] theorem State.beginDraw_cd : (s.beginDraw f1 f2).cd = s.cd := rfl
@[simp] theorem State.beginDraw_queue : (s.beginDraw f1 f2).queue = s.queue := rfl
@[simp] theorem State.beginDraw_scope : (s.beginDraw f1 f2).scope = s.scope := rfl
@[simp] theorem State.beginDraw_mem : (s.beginDraw f1 f2).mem = s.mem := rfl
@[simp] theorem State.beginDraw_params : (s.beginDraw f1 f2).params = s.params := rfl
@[simp] theorem State.beginDraw_inputs : (s.beginDraw f1 f2).inputs = s.inputs := rfl
@[simp] theorem State.beginDraw_turns : (s.beginDraw f1 f2).turns = s.turns := rfl
@[simp] theorem State.beginDraw_hostSeen : (s.beginDraw f1 f2).hostSeen = s.hostSeen := rfl
@[simp] theorem State.beginDraw_freeIx : (s.beginDraw f1 f2).freeIx = s.freeIx := rfl

end

end Sys2Proof.Machine
end

