-- ==== Sys2Proof/Laws/Ops.lean ====
section
/-!
SUPPORT. For each shared operation, what it can do, said once: the provers cite these lemmas instead of unfolding the
operations.
-/

namespace Sys2Proof.Machine

/-! ### Registers -/

/-- A register read after a register write. -/
@[simp] theorem State.reg_setReg (s : State) (r k : Reg) (v : Word) :
    (s.setReg r v).reg k = if k = r then v else s.reg k := by
  simp only [State.reg, State.setReg_regs]
  by_cases h : k = r
  · subst h; simp
  · have : r.val ≠ k.val := fun e => h (Fin.ext e.symm)
    simp [h, this]

/-- The register just written. -/
theorem State.reg_setReg_self (s : State) (r : Reg) (v : Word) : (s.setReg r v).reg r = v := by simp

/-- Another register than the one written. -/
theorem State.reg_setReg_of_ne (s : State) {r k : Reg} (v : Word) (h : k ≠ r) : (s.setReg r v).reg k = s.reg k := by simp [h]

/-- States with the same registers read the same in every one. -/
theorem State.reg_congr {s t : State} (h : t.regs = s.regs) (k : Reg) : t.reg k = s.reg k := by
  simp only [State.reg, h]

@[simp] theorem State.reg_setPc (s : State) (v : Word) (k : Reg) : (s.setPc v).reg k = s.reg k := rfl
@[simp] theorem State.reg_skip (s : State) (k : Reg) : s.skip.reg k = s.reg k := rfl
@[simp] theorem State.reg_skipIf (s : State) (c : Bool) (k : Reg) : (s.skipIf c).reg k = s.reg k := by cases c <;> rfl
@[simp] theorem State.reg_record (s : State) (c : Cond) (k : Reg) : (s.record c).reg k = s.reg k := rfl
@[simp] theorem State.reg_raise (s : State) (c : Cond) (k : Reg) : (s.raise c).reg k = s.reg k := rfl
@[simp] theorem State.reg_raiseIf (s : State) (b : Bool) (c : Cond) (k : Reg) : (s.raiseIf b c).reg k = s.reg k := by
  cases b <;> rfl
@[simp] theorem State.reg_entered (s : State) (h : Bool) (k : Reg) : (s.entered h).reg k = s.reg k := rfl
@[simp] theorem State.reg_endRepeat (s : State) (k : Reg) : s.endRepeat.reg k = s.reg k := rfl
@[simp] theorem State.reg_setRsrAddress (s : State) (a : DevAddr) (k : Reg) : (s.setRsrAddress a).reg k = s.reg k := rfl
@[simp] theorem State.reg_beginTransfer (s : State) (u d : Bool) (n : Nat) (a : DevAddr) (k : Reg) :
    (s.beginTransfer u d n a).reg k = s.reg k := rfl
@[simp] theorem State.reg_beginDraw (s : State) (f1 : Fsm1) (f2 : Fsm2) (k : Reg) :
    (s.beginDraw f1 f2).reg k = s.reg k := rfl
@[simp] theorem State.reg_setRsrFsm (s : State) (f1 : Fsm1) (f2 : Fsm2) (k : Reg) :
    (s.setRsrFsm f1 f2).reg k = s.reg k := rfl

/-! ### Memory accesses -/

/-- What an address translation depends on (R110). -/
theorem State.physical_congr {s t : State} (hm : t.mode = s.mode) (hp : t.params = s.params) (hb : t.bar = s.bar)
    (hr : t.protection = s.protection) (a : Word) : t.physical a = s.physical a := by
  simp only [State.physical, hm, hp, hb, hr]

/-- What a read depends on (R110). -/
theorem State.memRead_congr {s t : State} (hm : t.mode = s.mode) (hp : t.params = s.params) (hb : t.bar = s.bar)
    (hr : t.protection = s.protection) (hc : t.mem = s.mem) (a : Word) : t.memRead a = s.memRead a := by
  simp only [State.memRead, State.physical_congr hm hp hb hr, hp, hc]

@[simp] theorem State.physical_setReg (s : State) (r : Reg) (v a : Word) : (s.setReg r v).physical a = s.physical a := rfl
@[simp] theorem State.physical_setPc (s : State) (v a : Word) : (s.setPc v).physical a = s.physical a := rfl
@[simp] theorem State.memRead_setReg (s : State) (r : Reg) (v a : Word) : (s.setReg r v).memRead a = s.memRead a := rfl
@[simp] theorem State.memRead_setPc (s : State) (v a : Word) : (s.setPc v).memRead a = s.memRead a := rfl
@[simp] theorem State.memRead_setRsrAddress (s : State) (r : DevAddr) (a : Word) :
    (s.setRsrAddress r).memRead a = s.memRead a := rfl
@[simp] theorem State.memRead_beginTransfer (s : State) (u d : Bool) (n : Nat) (r : DevAddr) (a : Word) :
    (s.beginTransfer u d n r).memRead a = s.memRead a := rfl
@[simp] theorem State.memRead_beginDraw (s : State) (f1 : Fsm1) (f2 : Fsm2) (a : Word) :
    (s.beginDraw f1 f2).memRead a = s.memRead a := rfl

/-- A physical address in executive mode (R110). -/
theorem State.physical_executive {s : State} (h : s.mode = .executive) (a : Word) :
    s.physical a = if a.toNat < s.params.memSize then .ok a.toNat else .error .nonexistentMemory := by
  simp only [State.physical, h]

/-- A physical address in user mode (R110, R115, R116). -/
theorem State.physical_user {s : State} (h : s.mode = .user) (a : Word) :
    s.physical a = if inBounds s.protection (relocate s.params.relocation s.bar a) then
      (if (relocate s.params.relocation s.bar a).toNat < s.params.memSize then
        .ok (relocate s.params.relocation s.bar a).toNat else .error .nonexistentMemory)
      else .error .memoryProtection := by
  simp only [State.physical, h]

/-- A physical address exists (R120). -/
theorem State.physical_lt {s : State} {a : Word} {p : Nat} (h : s.physical a = .ok p) : p < s.params.memSize := by
  unfold State.physical at h
  split at h
  · split at h
    · next hl => exact (Except.ok.inj h) ▸ hl
    · cases h
  · dsimp only at h
    split at h
    · split at h
      · next hl => exact (Except.ok.inj h) ▸ hl
      · cases h
    · cases h

/-- A read that succeeds gives the word at its physical address, whose parity is good (R110, R121). -/
theorem State.memRead_eq_ok {s : State} {a v : Word} :
    s.memRead a = .ok v ↔ ∃ p, s.physical a = .ok p ∧ p ∉ s.params.parityBad ∧ Memory.readWord s.mem p = v := by
  unfold State.memRead
  cases h : s.physical a with
  | error c => simp
  | ok p => by_cases hp : p ∈ s.params.parityBad <;> simp [hp]

/-- A write that succeeds replaces the word at its physical address and nothing else (R111). -/
theorem State.memWrite_eq_ok {s t : State} {a v : Word} :
    s.memWrite a v = .ok t ↔ ∃ p, s.physical a = .ok p ∧ t = { s with mem := Memory.writeWord s.mem p v } := by
  unfold State.memWrite
  cases h : s.physical a with
  | error c => simp
  | ok p => simp [eq_comm]

/-- A write fails where its translation fails (R111). -/
theorem State.memWrite_eq_error {s : State} {a v : Word} {c : Cond} :
    s.memWrite a v = .error c ↔ s.physical a = .error c := by
  unfold State.memWrite
  cases h : s.physical a <;> simp

/-- A read that goes on. -/
theorem State.withRead_ok {s : State} {a v : Word} (h : s.memRead a = .ok v) (k : Word → State) : s.withRead a k = k v := by
  simp only [State.withRead, h]

/-- A read that raises (R604). -/
theorem State.withRead_error {s : State} {a : Word} {c : Cond} (h : s.memRead a = .error c) (k : Word → State) :
    s.withRead a k = s.raise c := by
  simp only [State.withRead, h]

/-- A write that goes on. -/
theorem State.withWrite_ok {s : State} {a v : Word} {p : Nat} (h : s.physical a = .ok p) (k : State → State) :
    s.withWrite a v k = k { s with mem := Memory.writeWord s.mem p v } := by
  simp only [State.withWrite, State.memWrite, h]

/-- A write that raises (R604). -/
theorem State.withWrite_error {s : State} {a v : Word} {c : Cond} (h : s.physical a = .error c) (k : State → State) :
    s.withWrite a v k = s.raise c := by
  simp only [State.withWrite, State.memWrite, h]

/-- An effective address that goes on. -/
theorem State.withEA_ok {s : State} {i x : Bool} {addr : BitVec 16} {e : Word} (h : s.ea i x addr = .ok e)
    (k : State → Word → State) : s.withEA i x addr k = k (s.afterEA i) e := by
  simp only [State.withEA, h]

/-- An effective address that raises (R604). -/
theorem State.withEA_error {s : State} {i x : Bool} {addr : BitVec 16} {c : Cond} (h : s.ea i x addr = .error c)
    (k : State → Word → State) : s.withEA i x addr k = s.raise c := by
  simp only [State.withEA, h]

/-- The push of the return stack that goes on (R220). -/
theorem State.pushPc_ok {s : State} {p : Nat} (h : s.physical (s.reg Reg.sp - 1) = .ok p) (k : State → State) :
    s.pushPc k = k (((({ s with mem := Memory.writeWord s.mem p (s.reg Reg.tos) } : State).setReg Reg.sp (s.reg Reg.sp - 1))).setReg
      Reg.tos s.pc) := by
  simp only [State.pushPc, State.withWrite_ok h]

/-- The pop of the return stack that goes on (R221). -/
theorem State.popTo_ok {s : State} {v : Word} (h : s.memRead (s.reg Reg.sp) = .ok v) (target : Word) :
    s.popTo target = (((s.setPc target).setReg Reg.tos v).setReg Reg.sp (s.reg Reg.sp + 1)).completeJump := by
  simp only [State.popTo, State.withRead_ok h]

/-! ### The other agents' actions in the midst of an instruction -/

/-- Where no action of another agent is left, none happens. -/
theorem State.popTurn_nil {s : State} (h : s.turns = []) (act : State → AgentEvent → State) : s.popTurn act = s := by
  unfold State.popTurn
  split
  · rfl
  · next h' => rw [h] at h'; cases h'

/-- Where no action of another agent is left, none happens between two accesses. -/
theorem State.gap_nil {s : State} (h : s.turns = []) : s.gap = s := State.popTurn_nil h _

/-- Where no action of another agent is left, none happens between two iterations. -/
theorem State.turn_nil {s : State} (h : s.turns = []) : s.turn = s := State.popTurn_nil h _

/-- Where no action of another agent is left, none happens after a fetch. -/
theorem State.afterFetch_nil {s : State} (h : s.turns = []) : s.afterFetch = s := State.popTurn_nil h _

/-- Where no action of another agent is left, none happens after an effective address. -/
theorem State.afterEA_nil {s : State} (h : s.turns = []) (i : Bool) : s.afterEA i = s := by
  cases i
  · rfl
  · exact State.gap_nil h

/-- One action of the host on memory changes memory and what the host has seen. -/
theorem State.hostAccess_frame (s : State) (e : AgentEvent) :
    s.hostAccess e = { s with mem := (s.hostAccess e).mem, hostSeen := (s.hostAccess e).hostSeen } := by
  cases e
  case hostRead a => unfold State.hostAccess State.hostRead; dsimp only; split <;> rfl
  case hostWrite a v => unfold State.hostAccess State.hostWrite; dsimp only; split <;> rfl
  all_goals rfl

/-- Between two memory accesses of an instruction only memory can change, and what the host has seen (R114, R126). -/
theorem State.gap_frame (s : State) : s.gap = { s with mem := s.gap.mem, turns := s.gap.turns, hostSeen := s.gap.hostSeen } := by
  have fold : ∀ (l : List AgentEvent) (t : State), l.foldl State.hostAccess t =
      { t with mem := (l.foldl State.hostAccess t).mem, hostSeen := (l.foldl State.hostAccess t).hostSeen } := by
    intro l
    induction l with
    | nil => exact fun _ => rfl
    | cons e l ih =>
      intro t
      rw [List.foldl_cons, ih, State.hostAccess_frame]
  unfold State.gap State.popTurn
  split
  · rfl
  · rw [fold]

@[simp] theorem State.gap_regs (s : State) : s.gap.regs = s.regs := by rw [s.gap_frame]
@[simp] theorem State.gap_pc (s : State) : s.gap.pc = s.pc := by rw [s.gap_frame]
@[simp] theorem State.gap_mode (s : State) : s.gap.mode = s.mode := by rw [s.gap_frame]
@[simp] theorem State.gap_pendUser (s : State) : s.gap.pendUser = s.pendUser := by rw [s.gap_frame]
@[simp] theorem State.gap_pendIon (s : State) : s.gap.pendIon = s.pendIon := by rw [s.gap_frame]
@[simp] theorem State.gap_lockLo (s : State) : s.gap.lockLo = s.lockLo := by rw [s.gap_frame]
@[simp] theorem State.gap_lockHi (s : State) : s.gap.lockHi = s.lockHi := by rw [s.gap_frame]
@[simp] theorem State.gap_sleeping (s : State) : s.gap.sleeping = s.sleeping := by rw [s.gap_frame]
@[simp] theorem State.gap_protFF (s : State) : s.gap.protFF = s.protFF := by rw [s.gap_frame]
@[simp] theorem State.gap_xw (s : State) : s.gap.xw = s.xw := by rw [s.gap_frame]
@[simp] theorem State.gap_raised (s : State) : s.gap.raised = s.raised := by rw [s.gap_frame]
@[simp] theorem State.gap_lastEntryHigh (s : State) : s.gap.lastEntryHigh = s.lastEntryHigh := by rw [s.gap_frame]
@[simp] theorem State.gap_dir (s : State) : s.gap.dir = s.dir := by rw [s.gap_frame]
@[simp] theorem State.gap_rsr (s : State) : s.gap.rsr = s.rsr := by rw [s.gap_frame]
@[simp] theorem State.gap_icr (s : State) : s.gap.icr = s.icr := by rw [s.gap_frame]
@[simp] theorem State.gap_imr (s : State) : s.gap.imr = s.imr := by rw [s.gap_frame]
@[simp] theorem State.gap_iodce (s : State) : s.gap.iodce = s.iodce := by rw [s.gap_frame]
@[simp] theorem State.gap_sync (s : State) : s.gap.sync = s.sync := by rw [s.gap_frame]
@[simp] theorem State.gap_protection (s : State) : s.gap.protection = s.protection := by rw [s.gap_frame]
@[simp] theorem State.gap_bar (s : State) : s.gap.bar = s.bar := by rw [s.gap_frame]
@[simp] theorem State.gap_switches (s : State) : s.gap.switches = s.switches := by rw [s.gap_frame]
@[simp] theorem State.gap_lights (s : State) : s.gap.lights = s.lights := by rw [s.gap_frame]
@[simp] theorem State.gap_attention (s : State) : s.gap.attention = s.attention := by rw [s.gap_frame]
@[simp] theorem State.gap_attentionMask (s : State) : s.gap.attentionMask = s.attentionMask := by rw [s.gap_frame]
@[simp] theorem State.gap_stopMask (s : State) : s.gap.stopMask = s.stopMask := by rw [s.gap_frame]
@[simp] theorem State.gap_hostInterrupt (s : State) : s.gap.hostInterrupt = s.hostInterrupt := by rw [s.gap_frame]
@[simp] theorem State.gap_mm (s : State) : s.gap.mm = s.mm := by rw [s.gap_frame]
@[simp] theorem State.gap_mdir (s : State) : s.gap.mdir = s.mdir := by rw [s.gap_frame]
@[simp] theorem State.gap_cd (s : State) : s.gap.cd = s.cd := by rw [s.gap_frame]
@[simp] theorem State.gap_queue (s : State) : s.gap.queue = s.queue := by rw [s.gap_frame]
@[simp] theorem State.gap_scope (s : State) : s.gap.scope = s.scope := by rw [s.gap_frame]
@[simp] theorem State.gap_params (s : State) : s.gap.params = s.params := by rw [s.gap_frame]
@[simp] theorem State.gap_inputs (s : State) : s.gap.inputs = s.inputs := by rw [s.gap_frame]
@[simp] theorem State.gap_freeIx (s : State) : s.gap.freeIx = s.freeIx := by rw [s.gap_frame]
@[simp] theorem State.reg_gap (s : State) (k : Reg) : s.gap.reg k = s.reg k := State.reg_congr s.gap_regs k
@[simp] theorem State.physical_gap (s : State) (a : Word) : s.gap.physical a = s.physical a :=
  State.physical_congr s.gap_mode s.gap_params s.gap_bar s.gap_protection a

/-- After an effective address only memory can have changed, and what the host has seen (R114, R126). -/
theorem State.afterEA_frame (s : State) (i : Bool) : s.afterEA i =
    { s with mem := (s.afterEA i).mem, turns := (s.afterEA i).turns, hostSeen := (s.afterEA i).hostSeen } := by
  cases i
  · rfl
  · exact s.gap_frame

@[simp] theorem State.afterEA_regs (s : State) (i : Bool) : (s.afterEA i).regs = s.regs := by rw [s.afterEA_frame i]
@[simp] theorem State.afterEA_pc (s : State) (i : Bool) : (s.afterEA i).pc = s.pc := by rw [s.afterEA_frame i]
@[simp] theorem State.afterEA_mode (s : State) (i : Bool) : (s.afterEA i).mode = s.mode := by rw [s.afterEA_frame i]
@[simp] theorem State.afterEA_pendUser (s : State) (i : Bool) : (s.afterEA i).pendUser = s.pendUser := by rw [s.afterEA_frame i]
@[simp] theorem State.afterEA_pendIon (s : State) (i : Bool) : (s.afterEA i).pendIon = s.pendIon := by rw [s.afterEA_frame i]
@[simp] theorem State.afterEA_lockLo (s : State) (i : Bool) : (s.afterEA i).lockLo = s.lockLo := by rw [s.afterEA_frame i]
@[simp] theorem State.afterEA_lockHi (s : State) (i : Bool) : (s.afterEA i).lockHi = s.lockHi := by rw [s.afterEA_frame i]
@[simp] theorem State.afterEA_sleeping (s : State) (i : Bool) : (s.afterEA i).sleeping = s.sleeping := by rw [s.afterEA_frame i]
@[simp] theorem State.afterEA_protFF (s : State) (i : Bool) : (s.afterEA i).protFF = s.protFF := by rw [s.afterEA_frame i]
@[simp] theorem State.afterEA_xw (s : State) (i : Bool) : (s.afterEA i).xw = s.xw := by rw [s.afterEA_frame i]
@[simp] theorem State.afterEA_raised (s : State) (i : Bool) : (s.afterEA i).raised = s.raised := by rw [s.afterEA_frame i]
@[simp] theorem State.afterEA_lastEntryHigh (s : State) (i : Bool) : (s.afterEA i).lastEntryHigh = s.lastEntryHigh := by rw [s.afterEA_frame i]
@[simp] theorem State.afterEA_dir (s : State) (i : Bool) : (s.afterEA i).dir = s.dir := by rw [s.afterEA_frame i]
@[simp] theorem State.afterEA_rsr (s : State) (i : Bool) : (s.afterEA i).rsr = s.rsr := by rw [s.afterEA_frame i]
@[simp] theorem State.afterEA_icr (s : State) (i : Bool) : (s.afterEA i).icr = s.icr := by rw [s.afterEA_frame i]
@[simp] theorem State.afterEA_imr (s : State) (i : Bool) : (s.afterEA i).imr = s.imr := by rw [s.afterEA_frame i]
@[simp] theorem State.afterEA_iodce (s : State) (i : Bool) : (s.afterEA i).iodce = s.iodce := by rw [s.afterEA_frame i]
@[simp] theorem State.afterEA_sync (s : State) (i : Bool) : (s.afterEA i).sync = s.sync := by rw [s.afterEA_frame i]
@[simp] theorem State.afterEA_protection (s : State) (i : Bool) : (s.afterEA i).protection = s.protection := by rw [s.afterEA_frame i]
@[simp] theorem State.afterEA_bar (s : State) (i : Bool) : (s.afterEA i).bar = s.bar := by rw [s.afterEA_frame i]
@[simp] theorem State.afterEA_switches (s : State) (i : Bool) : (s.afterEA i).switches = s.switches := by rw [s.afterEA_frame i]
@[simp] theorem State.afterEA_lights (s : State) (i : Bool) : (s.afterEA i).lights = s.lights := by rw [s.afterEA_frame i]
@[simp] theorem State.afterEA_attention (s : State) (i : Bool) : (s.afterEA i).attention = s.attention := by rw [s.afterEA_frame i]
@[simp] theorem State.afterEA_attentionMask (s : State) (i : Bool) : (s.afterEA i).attentionMask = s.attentionMask := by rw [s.afterEA_frame i]
@[simp] theorem State.afterEA_stopMask (s : State) (i : Bool) : (s.afterEA i).stopMask = s.stopMask := by rw [s.afterEA_frame i]
@[simp] theorem State.afterEA_hostInterrupt (s : State) (i : Bool) : (s.afterEA i).hostInterrupt = s.hostInterrupt := by rw [s.afterEA_frame i]
@[simp] theorem State.afterEA_mm (s : State) (i : Bool) : (s.afterEA i).mm = s.mm := by rw [s.afterEA_frame i]
@[simp] theorem State.afterEA_mdir (s : State) (i : Bool) : (s.afterEA i).mdir = s.mdir := by rw [s.afterEA_frame i]
@[simp] theorem State.afterEA_cd (s : State) (i : Bool) : (s.afterEA i).cd = s.cd := by rw [s.afterEA_frame i]
@[simp] theorem State.afterEA_queue (s : State) (i : Bool) : (s.afterEA i).queue = s.queue := by rw [s.afterEA_frame i]
@[simp] theorem State.afterEA_scope (s : State) (i : Bool) : (s.afterEA i).scope = s.scope := by rw [s.afterEA_frame i]
@[simp] theorem State.afterEA_params (s : State) (i : Bool) : (s.afterEA i).params = s.params := by rw [s.afterEA_frame i]
@[simp] theorem State.afterEA_inputs (s : State) (i : Bool) : (s.afterEA i).inputs = s.inputs := by rw [s.afterEA_frame i]
@[simp] theorem State.afterEA_freeIx (s : State) (i : Bool) : (s.afterEA i).freeIx = s.freeIx := by rw [s.afterEA_frame i]
@[simp] theorem State.reg_afterEA (s : State) (i : Bool) (k : Reg) : (s.afterEA i).reg k = s.reg k :=
  State.reg_congr (s.afterEA_regs i) k
@[simp] theorem State.physical_afterEA (s : State) (i : Bool) (a : Word) : (s.afterEA i).physical a = s.physical a := by
  cases i
  · rfl
  · exact s.physical_gap a

/-! ### The end of a jump -/

/-- A jump with nothing pending changes nothing (R621, R622). -/
theorem State.completeJump_plain {s : State} (hi : s.pendIon = false) (hu : s.pendUser = false) : s.completeJump = s := by
  simp [State.completeJump, hi, hu]

/-- What the end of a jump changes: the locks, the mode and the two pending bits (R621, R622). -/
theorem State.completeJump_frame (s : State) : s.completeJump =
    { s with mode := s.completeJump.mode, pendUser := s.completeJump.pendUser, pendIon := s.completeJump.pendIon,
             lockLo := s.completeJump.lockLo, lockHi := s.completeJump.lockHi } := by
  unfold State.completeJump State.unlock
  repeat' split
  all_goals first | rfl | (dsimp only; repeat' split) <;> rfl

/-! ### Every meaning has a next state (R600) -/

/-- Every instruction answers a next state. -/
theorem exec_next (i : Instr) (s : State) : ∃ t, exec i s = .next t := by
  cases i <;> exact ⟨_, rfl⟩

/-- The state an instruction leaves is the one `exec` answers. -/
theorem exec_outcomeState (i : Instr) (s : State) : exec i s = .next (outcomeState s (exec i s)) := by
  obtain ⟨t, h⟩ := exec_next i s
  rw [h]; rfl

end Sys2Proof.Machine
end

