-- ==== Sys2Proof/Laws/PerInstr.lean ====
section
/-!
SUPPORT. The family Canonical: for every instruction, the second spellings (R165) share the word of the instruction they stand for, and the
decoder's spelling of a word is well formed. One lemma per constructor.
-/

namespace Sys2Proof.Laws.Canonical

/-- An instruction and its canonical spelling have one word, and the canonical spelling is well formed (R165). -/
def Statement (i : Instr) : Prop := encode i.canon = encode i ∧ i.canon.WellFormed

theorem lo (i : Bool) (r : Reg) (addr : BitVec 16) : Statement (.lo i r addr) := ⟨rfl, rfl⟩
theorem st (i : Bool) (r : Reg) (addr : BitVec 16) : Statement (.st i r addr) := ⟨rfl, rfl⟩
theorem j (i : Bool) (x : Bool) (addr : BitVec 16) : Statement (.j i x addr) := ⟨rfl, rfl⟩
theorem pushj (i : Bool) (x : Bool) (addr : BitVec 16) : Statement (.pushj i x addr) := ⟨rfl, rfl⟩
theorem xeq (i : Bool) (x : Bool) (addr : BitVec 16) : Statement (.xeq i x addr) := ⟨rfl, rfl⟩
theorem add (r1 : Reg) (r2 : Reg) : Statement (.add r1 r2) := ⟨rfl, rfl⟩
theorem addnc (r1 : Reg) (r2 : Reg) : Statement (.addnc r1 r2) := ⟨rfl, rfl⟩
theorem sub (r1 : Reg) (r2 : Reg) : Statement (.sub r1 r2) := ⟨rfl, rfl⟩
theorem subnb (r1 : Reg) (r2 : Reg) : Statement (.subnb r1 r2) := ⟨rfl, rfl⟩
theorem rlo (r1 : Reg) (r2 : Reg) : Statement (.rlo r1 r2) := ⟨rfl, rfl⟩
theorem rloz (r1 : Reg) (r2 : Reg) : Statement (.rloz r1 r2) := ⟨rfl, rfl⟩
theorem xor (r1 : Reg) (r2 : Reg) : Statement (.xor r1 r2) := ⟨rfl, rfl⟩
theorem xorz (r1 : Reg) (r2 : Reg) : Statement (.xorz r1 r2) := ⟨rfl, rfl⟩
theorem and (r1 : Reg) (r2 : Reg) : Statement (.and r1 r2) := ⟨rfl, rfl⟩
theorem andz (r1 : Reg) (r2 : Reg) : Statement (.andz r1 r2) := ⟨rfl, rfl⟩
theorem or (r1 : Reg) (r2 : Reg) : Statement (.or r1 r2) := ⟨rfl, rfl⟩
theorem orz (r1 : Reg) (r2 : Reg) : Statement (.orz r1 r2) := ⟨rfl, rfl⟩
theorem xornz (r1 : Reg) (r2 : Reg) : Statement (.xornz r1 r2) := ⟨rfl, rfl⟩
theorem andnz (r1 : Reg) (r2 : Reg) : Statement (.andnz r1 r2) := ⟨rfl, rfl⟩
theorem addi (r : Reg) (n : BitVec 12) : Statement (.addi r n) := ⟨rfl, rfl⟩
theorem addinc (r : Reg) (n : BitVec 12) : Statement (.addinc r n) := ⟨rfl, rfl⟩
theorem subi (r : Reg) (n : BitVec 12) : Statement (.subi r n) := ⟨rfl, rfl⟩
theorem subinb (r : Reg) (n : BitVec 12) : Statement (.subinb r n) := ⟨rfl, rfl⟩
theorem ilo (r : Reg) (n : BitVec 12) : Statement (.ilo r n) := ⟨rfl, rfl⟩
theorem iloz (r : Reg) (n : BitVec 12) : Statement (.iloz r n) := ⟨rfl, rfl⟩
theorem ilom (r : Reg) (n : BitVec 12) : Statement (.ilom r n) := ⟨rfl, rfl⟩
theorem ilomz (r : Reg) (n : BitVec 12) : Statement (.ilomz r n) := ⟨rfl, rfl⟩
theorem cshr (r : Reg) (b : BitCount) : Statement (.cshr r b) := ⟨rfl, rfl⟩
theorem cshl (r : Reg) (b : BitCount) : Statement (.cshl r b) := ⟨rfl, rfl⟩
theorem lshr (r : Reg) (b : BitCount) : Statement (.lshr r b) := ⟨rfl, rfl⟩
theorem lshl (r : Reg) (b : BitCount) : Statement (.lshl r b) := ⟨rfl, rfl⟩
theorem ashr (r : Reg) (b : BitCount) : Statement (.ashr r b) := ⟨rfl, rfl⟩
theorem ashrd (r : Reg) (b : BitCount) : Statement (.ashrd r b) := ⟨rfl, rfl⟩
theorem lshrd (r : Reg) (b : BitCount) : Statement (.lshrd r b) := ⟨rfl, rfl⟩
theorem lshld (r : Reg) (b : BitCount) : Statement (.lshld r b) := ⟨rfl, rfl⟩
theorem sob (r : Reg) (b : BitCount) : Statement (.sob r b) := ⟨rfl, rfl⟩
theorem szb (r : Reg) (b : BitCount) : Statement (.szb r b) := ⟨rfl, rfl⟩
theorem clb (r : Reg) (b : BitCount) : Statement (.clb r b) := ⟨rfl, rfl⟩
theorem setb (r : Reg) (b : BitCount) : Statement (.setb r b) := ⟨rfl, rfl⟩
theorem sobcl (r : Reg) (b : BitCount) : Statement (.sobcl r b) := ⟨rfl, rfl⟩
theorem szbcl (r : Reg) (b : BitCount) : Statement (.szbcl r b) := ⟨rfl, rfl⟩
theorem sobset (r : Reg) (b : BitCount) : Statement (.sobset r b) := ⟨rfl, rfl⟩
theorem szbset (r : Reg) (b : BitCount) : Statement (.szbset r b) := ⟨rfl, rfl⟩
theorem dec (r : Reg) : Statement (.dec r) := ⟨rfl, rfl⟩
theorem dece (r : Reg) : Statement (.dece r) := ⟨rfl, rfl⟩
theorem decl (r : Reg) : Statement (.decl r) := ⟨rfl, rfl⟩
theorem decle (r : Reg) : Statement (.decle r) := ⟨rfl, rfl⟩
theorem decg (r : Reg) : Statement (.decg r) := ⟨rfl, rfl⟩
theorem decge (r : Reg) : Statement (.decge r) := ⟨rfl, rfl⟩
theorem decne (r : Reg) : Statement (.decne r) := ⟨rfl, rfl⟩
theorem deca (r : Reg) : Statement (.deca r) := ⟨rfl, rfl⟩
theorem inc (r : Reg) : Statement (.inc r) := ⟨rfl, rfl⟩
theorem ince (r : Reg) : Statement (.ince r) := ⟨rfl, rfl⟩
theorem incl (r : Reg) : Statement (.incl r) := ⟨rfl, rfl⟩
theorem incle (r : Reg) : Statement (.incle r) := ⟨rfl, rfl⟩
theorem incg (r : Reg) : Statement (.incg r) := ⟨rfl, rfl⟩
theorem incge (r : Reg) : Statement (.incge r) := ⟨rfl, rfl⟩
theorem incne (r : Reg) : Statement (.incne r) := ⟨rfl, rfl⟩
theorem inca (r : Reg) : Statement (.inca r) := ⟨rfl, rfl⟩
theorem com (r : Reg) : Statement (.com r) := ⟨rfl, rfl⟩
theorem come (r : Reg) : Statement (.come r) := ⟨rfl, rfl⟩
theorem coml (r : Reg) : Statement (.coml r) := ⟨rfl, rfl⟩
theorem comle (r : Reg) : Statement (.comle r) := ⟨rfl, rfl⟩
theorem comg (r : Reg) : Statement (.comg r) := ⟨rfl, rfl⟩
theorem comge (r : Reg) : Statement (.comge r) := ⟨rfl, rfl⟩
theorem comne (r : Reg) : Statement (.comne r) := ⟨rfl, rfl⟩
theorem coma (r : Reg) : Statement (.coma r) := ⟨rfl, rfl⟩
theorem neg (r : Reg) : Statement (.neg r) := ⟨rfl, rfl⟩
theorem nege (r : Reg) : Statement (.nege r) := ⟨rfl, rfl⟩
theorem negl (r : Reg) : Statement (.negl r) := ⟨rfl, rfl⟩
theorem negle (r : Reg) : Statement (.negle r) := ⟨rfl, rfl⟩
theorem negg (r : Reg) : Statement (.negg r) := ⟨rfl, rfl⟩
theorem negge (r : Reg) : Statement (.negge r) := ⟨rfl, rfl⟩
theorem negne (r : Reg) : Statement (.negne r) := ⟨rfl, rfl⟩
theorem nega (r : Reg) : Statement (.nega r) := ⟨rfl, rfl⟩
theorem tst (r : Reg) : Statement (.tst r) := ⟨rfl, rfl⟩
theorem tste (r : Reg) : Statement (.tste r) := ⟨rfl, rfl⟩
theorem tstl (r : Reg) : Statement (.tstl r) := ⟨rfl, rfl⟩
theorem tstle (r : Reg) : Statement (.tstle r) := ⟨rfl, rfl⟩
theorem tstg (r : Reg) : Statement (.tstg r) := ⟨rfl, rfl⟩
theorem tstge (r : Reg) : Statement (.tstge r) := ⟨rfl, rfl⟩
theorem tstne (r : Reg) : Statement (.tstne r) := ⟨rfl, rfl⟩
theorem tsta (r : Reg) : Statement (.tsta r) := ⟨rfl, rfl⟩
theorem zr (r : Reg) : Statement (.zr r) := ⟨rfl, rfl⟩
theorem zre (r : Reg) : Statement (.zre r) := ⟨rfl, rfl⟩
theorem zrl (r : Reg) : Statement (.zrl r) := ⟨rfl, rfl⟩
theorem zrle (r : Reg) : Statement (.zrle r) := ⟨rfl, rfl⟩
theorem zrg (r : Reg) : Statement (.zrg r) := ⟨rfl, rfl⟩
theorem zrge (r : Reg) : Statement (.zrge r) := ⟨rfl, rfl⟩
theorem zrne (r : Reg) : Statement (.zrne r) := ⟨rfl, rfl⟩
theorem zra (r : Reg) : Statement (.zra r) := ⟨rfl, rfl⟩
theorem abv (r : Reg) : Statement (.abv r) := ⟨rfl, rfl⟩
theorem abve (r : Reg) : Statement (.abve r) := ⟨rfl, rfl⟩
theorem abvl (r : Reg) : Statement (.abvl r) := ⟨rfl, rfl⟩
theorem abvle (r : Reg) : Statement (.abvle r) := ⟨rfl, rfl⟩
theorem abvg (r : Reg) : Statement (.abvg r) := ⟨rfl, rfl⟩
theorem abvge (r : Reg) : Statement (.abvge r) := ⟨rfl, rfl⟩
theorem abvne (r : Reg) : Statement (.abvne r) := ⟨rfl, rfl⟩
theorem abva (r : Reg) : Statement (.abva r) := ⟨rfl, rfl⟩
theorem slo (r : Reg) : Statement (.slo r) := ⟨rfl, rfl⟩
theorem sloe (r : Reg) : Statement (.sloe r) := ⟨rfl, rfl⟩
theorem slol (r : Reg) : Statement (.slol r) := ⟨rfl, rfl⟩
theorem slole (r : Reg) : Statement (.slole r) := ⟨rfl, rfl⟩
theorem slog (r : Reg) : Statement (.slog r) := ⟨rfl, rfl⟩
theorem sloge (r : Reg) : Statement (.sloge r) := ⟨rfl, rfl⟩
theorem slone (r : Reg) : Statement (.slone r) := ⟨rfl, rfl⟩
theorem sloa (r : Reg) : Statement (.sloa r) := ⟨rfl, rfl⟩
theorem rex (r : Reg) : Statement (.rex r) := ⟨rfl, rfl⟩
theorem mr (r : Reg) (b : BitCount) : Statement (.mr r b) := ⟨rfl, rfl⟩
theorem ml (r : Reg) (b : BitCount) : Statement (.ml r b) := ⟨rfl, rfl⟩
theorem ce (r1 : Reg) (r2 : Reg) : Statement (.ce r1 r2) := ⟨rfl, rfl⟩
theorem cne (r1 : Reg) (r2 : Reg) : Statement (.cne r1 r2) := ⟨rfl, rfl⟩
theorem cei (r : Reg) (n : BitVec 12) : Statement (.cei r n) := ⟨rfl, rfl⟩
theorem cnei (r : Reg) (n : BitVec 12) : Statement (.cnei r n) := ⟨rfl, rfl⟩
theorem cemi (r : Reg) (n : BitVec 12) : Statement (.cemi r n) := ⟨rfl, rfl⟩
theorem cnemi (r : Reg) (n : BitVec 12) : Statement (.cnemi r n) := ⟨rfl, rfl⟩
theorem push (r1 : Reg) (r2 : Reg) : Statement (.push r1 r2) := ⟨rfl, rfl⟩
theorem pop (r1 : Reg) (r2 : Reg) : Statement (.pop r1 r2) := ⟨rfl, rfl⟩
theorem ipush (r1 : Reg) (r2 : Reg) : Statement (.ipush r1 r2) := ⟨rfl, rfl⟩
theorem ipop (r1 : Reg) (r2 : Reg) : Statement (.ipop r1 r2) := ⟨rfl, rfl⟩
theorem pushi (r1 : Reg) (r2 : Reg) : Statement (.pushi r1 r2) := ⟨rfl, rfl⟩
theorem popi (r1 : Reg) (r2 : Reg) : Statement (.popi r1 r2) := ⟨rfl, rfl⟩
theorem dpush (r1 : Reg) (r2 : Reg) : Statement (.dpush r1 r2) := ⟨rfl, rfl⟩
theorem dpop (r1 : Reg) (r2 : Reg) : Statement (.dpop r1 r2) := ⟨rfl, rfl⟩
theorem pushd (r1 : Reg) (r2 : Reg) : Statement (.pushd r1 r2) := ⟨rfl, rfl⟩
theorem popd (r1 : Reg) (r2 : Reg) : Statement (.popd r1 r2) := ⟨rfl, rfl⟩
theorem regj (r : Reg) (n : BitVec 12) : Statement (.regj r n) := ⟨rfl, rfl⟩
theorem regpj (r : Reg) (n : BitVec 12) : Statement (.regpj r n) := ⟨rfl, rfl⟩
theorem regjs (r : Reg) (n : BitVec 12) : Statement (.regjs r n) := ⟨rfl, rfl⟩
theorem iot (r : Reg) (dev : BitVec 16) : Statement (.iot r dev) := ⟨rfl, rfl⟩
theorem locla (da : DevAddr) : Statement (.locla da) := ⟨rfl, rfl⟩
theorem loclr (da : DevAddr) : Statement (.loclr da) := ⟨rfl, rfl⟩
theorem loclsa (da : DevAddr) : Statement (.loclsa da) := ⟨rfl, rfl⟩
theorem loclsr (da : DevAddr) : Statement (.loclsr da) := ⟨rfl, rfl⟩
theorem lomma (da : DevAddr) : Statement (.lomma da) := ⟨rfl, rfl⟩
theorem lommr (da : DevAddr) : Statement (.lommr da) := ⟨rfl, rfl⟩
theorem lommp (da : DevAddr) : Statement (.lommp da) := ⟨rfl, rfl⟩
theorem lomdr : Statement (.lomdr) := ⟨rfl, rfl⟩
theorem stcl (da : DevAddr) : Statement (.stcl da) := ⟨rfl, rfl⟩
theorem stmm (da : DevAddr) : Statement (.stmm da) := ⟨rfl, rfl⟩
theorem nomm : Statement (.nomm) := ⟨rfl, rfl⟩
theorem popmm (da : DevAddr) : Statement (.popmm da) := ⟨rfl, rfl⟩
theorem stmdr : Statement (.stmdr) := ⟨rfl, rfl⟩
theorem rtcla (da : DevAddr) : Statement (.rtcla da) := ⟨rfl, rfl⟩
theorem rtclr (da : DevAddr) : Statement (.rtclr da) := ⟨rfl, rfl⟩
theorem rtclsa (da : DevAddr) : Statement (.rtclsa da) := ⟨rfl, rfl⟩
theorem rtclsr (da : DevAddr) : Statement (.rtclsr da) := ⟨rfl, rfl⟩
theorem rtmm (da : DevAddr) : Statement (.rtmm da) := ⟨rfl, rfl⟩
theorem rtmms (da : DevAddr) : Statement (.rtmms da) := ⟨rfl, rfl⟩
theorem rtmdr : Statement (.rtmdr) := ⟨rfl, rfl⟩
theorem skcl (da : DevAddr) : Statement (.skcl da) := ⟨rfl, rfl⟩
theorem skmm (da : DevAddr) : Statement (.skmm da) := ⟨rfl, rfl⟩
theorem skmms (da : DevAddr) : Statement (.skmms da) := ⟨rfl, rfl⟩
theorem pushmm (da : DevAddr) : Statement (.pushmm da) := ⟨rfl, rfl⟩
theorem skmdr : Statement (.skmdr) := ⟨rfl, rfl⟩
theorem td (f1 : Fsm1) (f2 : Fsm2) : Statement (.td f1 f2) := ⟨rfl, rfl⟩
theorem tdr (f1 : Fsm1) (f2 : Fsm2) : Statement (.tdr f1 f2) := ⟨rfl, rfl⟩
theorem tdi (f1 : Fsm1) (f2 : Fsm2) : Statement (.tdi f1 f2) := ⟨rfl, rfl⟩
theorem tdir (f1 : Fsm1) (f2 : Fsm2) : Statement (.tdir f1 f2) := ⟨rfl, rfl⟩
theorem tdix (f1 : Fsm1) (f2 : Fsm2) : Statement (.tdix f1 f2) := ⟨rfl, rfl⟩
theorem tdixr (f1 : Fsm1) (f2 : Fsm2) : Statement (.tdixr f1 f2) := ⟨rfl, rfl⟩
theorem mmd (f1 : Fsm1) : Statement (.mmd f1) := ⟨rfl, rfl⟩
theorem mmdr (f1 : Fsm1) : Statement (.mmdr f1) := ⟨rfl, rfl⟩
theorem sd (i : Bool) (x : Bool) (man : Manner) (addr : BitVec 16) : Statement (.sd i x man addr) := ⟨rfl, rfl⟩
theorem rlocla (da : DevAddr) (x : XSel) : Statement (.rlocla da x) := ⟨rfl, rfl⟩
theorem rloclr (da : DevAddr) (x : XSel) : Statement (.rloclr da x) := ⟨rfl, rfl⟩
theorem rlomma (da : DevAddr) (x : XSel) : Statement (.rlomma da x) := ⟨rfl, rfl⟩
theorem rlommr (da : DevAddr) (x : XSel) : Statement (.rlommr da x) := ⟨rfl, rfl⟩
theorem rlommp (da : DevAddr) (x : XSel) : Statement (.rlommp da x) := ⟨rfl, rfl⟩
theorem rstcl (da : DevAddr) (x : XSel) : Statement (.rstcl da x) := ⟨rfl, rfl⟩
theorem rstmm (da : DevAddr) (x : XSel) : Statement (.rstmm da x) := ⟨rfl, rfl⟩
theorem rlomdr (x : XSel) : Statement (.rlomdr x) := ⟨rfl, rfl⟩
theorem rstmdr (x : XSel) : Statement (.rstmdr x) := ⟨rfl, rfl⟩
theorem rd (f1 : Fsm1) (f2 : Fsm2) (x : XSel) : Statement (.rd f1 f2 x) := ⟨rfl, rfl⟩
theorem nop : Statement (.nop) := ⟨rfl, rfl⟩
theorem sleep : Statement (.sleep) := ⟨rfl, rfl⟩
theorem popj : Statement (.popj) := ⟨rfl, rfl⟩
theorem popjof (n : BitVec 12) : Statement (.popjof n) := ⟨rfl, rfl⟩
theorem ashl (r : Reg) (b : BitCount) : Statement (.ashl r b) := ⟨rfl, rfl⟩
theorem ashld (r : Reg) (b : BitCount) : Statement (.ashld r b) := ⟨rfl, rfl⟩

end Sys2Proof.Laws.Canonical
end

