-- ==== Sys2Proof/Laws/Step.lean ====
section
/-!
SUPPORT. What a step and a cycle can do, said once per case.
-/

namespace Sys2Proof.Machine

/-- A step with no pending event. -/
theorem step_idle {s : State} (h : s.inputs = []) : step s = .next s.idle := by
  unfold step
  split
  · next e rest he => rw [h] at he; cases he
  · rfl

/-- With no interrupt that settling brought about, a step with no pending event is a cycle of the settled state. -/
theorem State.idle_cycle {s : State} (h : (State.settle { s with turns := [] }).raised = false ∨
    (State.settle { s with turns := [] }).interruptTaken = false) :
    s.idle = (State.settle { s with turns := [] }).cycle := by
  simp only [State.idle]
  rcases h with h | h <;> simp only [h, Bool.false_and, Bool.and_false, Bool.false_eq_true, if_false]

/-- An interrupt that a condition of settling's output brought about is taken at test point (B), with PC as it stands (R602, R604). -/
theorem State.idle_interrupt {s : State} (h : (State.settle { s with turns := [] }).raised = true)
    (hi : (State.settle { s with turns := [] }).interruptTaken = true) :
    s.idle = State.testB 2 (State.settle { s with turns := [] }) := by
  simp only [State.idle, h, hi, Bool.and_self, if_true]

/-- A step with a pending event takes that event. -/
theorem step_event {s : State} {e : Input} {rest : List Input} (h : s.inputs = e :: rest) :
    step s = .next (({ s with inputs := rest } : State).event e) := by
  unfold step
  split
  · next e' rest' he => rw [h] at he; cases he; rfl
  · next he => rw [h] at he; cases he

/-- A step has a next state (R600). -/
theorem step_next (s : State) : ∃ t, step s = .next t := by
  unfold step
  split <;> exact ⟨_, rfl⟩

/-- A settled pipeline stays as it is. -/
theorem State.settle_of_empty {s : State} (h : s.queue = []) : s.settle = s := by
  unfold State.settle
  rw [h, List.foldl_nil, ← h]

/-- A word that decodes is executed. -/
theorem State.runWord_ok {s : State} {w : Word} {i : Instr} (h : decodeWith s.params.stackBit22 w = .ok i) :
    s.runWord w = outcomeState s (exec i s) := by
  simp only [State.runWord, h]

/-- A word that does not decode raises Unimplemented Instruction (R603). -/
theorem State.runWord_error {s : State} {w : Word} {e : DecodeError} (h : decodeWith s.params.stackBit22 w = .error e) :
    s.runWord w = s.raise .unimplemented := by
  simp only [State.runWord, h]

/-- Test point (B) is not made unless a condition was raised (R610). -/
theorem State.testB_quiet {s : State} (h : s.raised = false) (n : Nat) : State.testB n s = s := by
  cases n
  · unfold State.testB; rw [← h]
  · unfold State.testB; simp only [h, Bool.false_eq_true, if_false]

/-- With nothing for other agents to do, test point (B) is the interrupt test alone (R610). -/
theorem State.testB_succ {s : State} {n : Nat} (h : s.raised = true) (ht : s.turns = []) :
    State.testB (n + 1) s = if ({ s with raised := false } : State).interruptTaken then
      State.testB n ({ s with raised := false } : State).takeInterrupt else { s with raised := false } := by
  rw [State.testB]
  simp only [h, if_true, State.popTurn_nil ht]

/-- Test point (B) with no interrupt to be taken only forgets that a condition was raised (R610). -/
theorem State.testB_no_interrupt {s : State} {n : Nat} (h : s.raised = true) (ht : s.turns = [])
    (hi : ({ s with raised := false } : State).interruptTaken = false) : State.testB (n + 1) s = { s with raised := false } := by
  rw [State.testB_succ h ht, hi, if_neg Bool.false_ne_true]

/-- Test point (B) with an interrupt to be taken takes it (R610). -/
theorem State.testB_interrupt {s : State} {n : Nat} (h : s.raised = true) (ht : s.turns = [])
    (hi : ({ s with raised := false } : State).interruptTaken = true) :
    State.testB (n + 1) s = State.testB n ({ s with raised := false } : State).takeInterrupt := by
  rw [State.testB_succ h ht, hi, if_pos rfl]

/-- A cycle in which nothing intervenes fetches and executes the word at PC (R103). -/
theorem State.cycleA_fetch {s : State} (hs : s.sleeping = false) (hx : s.xw = none) (hi : s.interruptTaken = false) :
    s.cycleA = s.fetchAndRun := by
  simp only [State.cycleA, hs, hx, hi, Bool.false_eq_true, if_false]

/-- A cycle in which a word of XEQ or REX waits executes it (R236). -/
theorem State.cycleA_xw {s : State} {w : Word} (hs : s.sleeping = false) (hx : s.xw = some w) (hi : s.interruptTaken = false) :
    s.cycleA = ({ s with xw := none } : State).runWord w := by
  simp only [State.cycleA, hs, hx, hi, Bool.false_eq_true, if_false]

end Sys2Proof.Machine
end

