-- ==== Sys2Proof/Tests/Slice0.lean ====
section
/-!
SUPPORT. Tests: words of the spec's encoding tables decoded, and single steps from the spec's worked vectors.
Expected values are the spec's (its rule or vector is named at each), all numbers octal.
-/

namespace Sys2Proof.Tests

open Sys2Proof.Machine

/-! ### Decoding -/

/-- MEM, R151. -/
theorem test_decode_0 : decode 0b000000010000000001000000#24 = .ok (.lo false 1 0o100) := by decide

/-- MEM with @, R146. -/
theorem test_decode_1 : decode 0b100100100000000010000000#24 = .ok (.st true 2 0o200) := by decide

/-- JMP, R152. -/
theorem test_decode_2 : decode 0b001000110000001000101110#24 = .ok (.j false false 0o1056) := by decide

/-- JMP with @ and %, R147. -/
theorem test_decode_3 : decode 0b101101110000000011000000#24 = .ok (.pushj true true 0o300) := by decide

/-- JMP with manner 014, R494. -/
theorem test_decode_4 : decode 0b001011000000001000000000#24 = .ok (.sd false false .boxa 0o1000) := by decide

/-- RR, R157. -/
theorem test_decode_5 : decode 0b011000000000000000010000#24 = .ok (.add 0 1) := by decide

/-- RN, R157. -/
theorem test_decode_6 : decode 0b111000010000000000111001#24 = .ok (.subinb 1 3) := by decide

/-- RB, R155. -/
theorem test_decode_7 : decode 0b010100010000000101111011#24 = .ok (.setb 1 23) := by decide

/-- UN with bit 16, R156. -/
theorem test_decode_8 : decode 0b110100000000000010110100#24 = .ok (.sloge 0) := by decide

/-- UN, R156. -/
theorem test_decode_9 : decode 0b110101110000000000010000#24 = .ok (.dece 7) := by decide

/-- REX, R156. -/
theorem test_decode_10 : decode 0b110100010000000000000111#24 = .ok (.rex 1) := by decide

/-- stack, R158. -/
theorem test_decode_11 : decode 0b011100000000000011000110#24 = .ok (.pushi 0 12) := by decide

/-- register jump, R158. -/
theorem test_decode_12 : decode 0b011101000000000000111110#24 = .ok (.regjs 4 3) := by decide

/-- IOT, R159. -/
theorem test_decode_13 : decode 0b111100100000000000010000#24 = .ok (.iot 2 0o20) := by decide

/-- PL, R153. -/
theorem test_decode_14 : decode 0b010000000000000001000110#24 = .ok (.locla 4) := by decide

/-- PL without operand, R153. -/
theorem test_decode_15 : decode 0b110001010000000000000110#24 = .ok (.nomm) := by decide

/-- PL, R153, C2. -/
theorem test_decode_16 : decode 0b110001100000000001000111#24 = .ok (.pushmm 4) := by decide

/-- PLX, R153. -/
theorem test_decode_17 : decode 0b010001100000000001000101#24 = .ok (.rlommp 4 .dx) := by decide

/-- TD, R154. -/
theorem test_decode_18 : decode 0b010000110000000010001110#24 = .ok (.tdr .poly .av) := by decide

/-- TD indirect and indexed, R154. -/
theorem test_decode_19 : decode 0b110010100000000000101110#24 = .ok (.tdix .drawTo .aa) := by decide

/-- RD, R154. -/
theorem test_decode_20 : decode 0b010000110000000000101101#24 = .ok (.rd .poly .aa .dx) := by decide

/-- MMD, R154. -/
theorem test_decode_21 : decode 0b010000110000000010101111#24 = .ok (.mmdr .poly) := by decide

/-- The words of 30_encoding.md R151 to R159 with every operand field zero, part 1. -/
theorem test_base_words_1 : ([0o00000000, 0o04000000, 0o10600000, 0o11600000, 0o12600000, 0o30000000, 0o70000000, 0o30000001, 0o70000001, 0o30000002, 0o70000002, 0o30000003, 0o70000003, 0o30000004, 0o70000004, 0o30000005, 0o70000005, 0o70000006, 0o70000007, 0o30000010, 0o70000010, 0o30000011, 0o70000011, 0o30000012, 0o70000012, 0o30000013, 0o70000013, 0o24000000, 0o24000001] : List Nat).map (decodeTableWord 24) =
    [some (.lo false 0 0), some (.st false 0 0), some (.j false false 0), some (.pushj false false 0), some (.xeq false false 0), some (.add 0 0), some (.addnc 0 0), some (.sub 0 0), some (.subnb 0 0), some (.rlo 0 0), some (.rloz 0 0), some (.xor 0 0), some (.xorz 0 0), some (.and 0 0), some (.andz 0 0), some (.or 0 0), some (.orz 0 0), some (.xornz 0 0), some (.andnz 0 0), some (.addi 0 0), some (.addinc 0 0), some (.subi 0 0), some (.subinb 0 0), some (.ilo 0 0), some (.iloz 0 0), some (.ilom 0 0), some (.ilomz 0 0), some (.cshr 0 0), some (.cshl 0 0)] := by decide

/-- The words of 30_encoding.md R151 to R159 with every operand field zero, part 2. -/
theorem test_base_words_2 : ([0o24000002, 0o24000003, 0o24000004, 0o24000005, 0o24000006, 0o24000007, 0o24000010, 0o24000011, 0o24000012, 0o24000013, 0o24000014, 0o24000015, 0o24000016, 0o24000017, 0o64000000, 0o64000020, 0o64000100, 0o64000120, 0o64000040, 0o64000060, 0o64000140, 0o64000160, 0o64000001, 0o64000021, 0o64000101, 0o64000121, 0o64000041, 0o64000061, 0o64000141] : List Nat).map (decodeTableWord 24) =
    [some (.lshr 0 0), some (.lshl 0 0), some (.ashr 0 0), some (.ashrd 0 0), some (.lshrd 0 0), some (.lshld 0 0), some (.sob 0 0), some (.szb 0 0), some (.clb 0 0), some (.setb 0 0), some (.sobcl 0 0), some (.szbcl 0 0), some (.sobset 0 0), some (.szbset 0 0), some (.dec 0), some (.dece 0), some (.decl 0), some (.decle 0), some (.decg 0), some (.decge 0), some (.decne 0), some (.deca 0), some (.inc 0), some (.ince 0), some (.incl 0), some (.incle 0), some (.incg 0), some (.incge 0), some (.incne 0)] := by decide

/-- The words of 30_encoding.md R151 to R159 with every operand field zero, part 3. -/
theorem test_base_words_3 : ([0o64000161, 0o64000002, 0o64000022, 0o64000102, 0o64000122, 0o64000042, 0o64000062, 0o64000142, 0o64000162, 0o64000003, 0o64000023, 0o64000103, 0o64000123, 0o64000043, 0o64000063, 0o64000143, 0o64000163, 0o64000004, 0o64000024, 0o64000104, 0o64000124, 0o64000044, 0o64000064, 0o64000144, 0o64000164, 0o64000005, 0o64000025, 0o64000105, 0o64000125] : List Nat).map (decodeTableWord 24) =
    [some (.inca 0), some (.com 0), some (.come 0), some (.coml 0), some (.comle 0), some (.comg 0), some (.comge 0), some (.comne 0), some (.coma 0), some (.neg 0), some (.nege 0), some (.negl 0), some (.negle 0), some (.negg 0), some (.negge 0), some (.negne 0), some (.nega 0), some (.tst 0), some (.tste 0), some (.tstl 0), some (.tstle 0), some (.tstg 0), some (.tstge 0), some (.tstne 0), some (.tsta 0), some (.zr 0), some (.zre 0), some (.zrl 0), some (.zrle 0)] := by decide

/-- The words of 30_encoding.md R151 to R159 with every operand field zero, part 4. -/
theorem test_base_words_4 : ([0o64000045, 0o64000065, 0o64000145, 0o64000165, 0o64000006, 0o64000026, 0o64000106, 0o64000126, 0o64000046, 0o64000066, 0o64000146, 0o64000166, 0o64000204, 0o64000224, 0o64000304, 0o64000324, 0o64000244, 0o64000264, 0o64000344, 0o64000364, 0o64000007, 0o64000010, 0o64000011, 0o64000012, 0o64000013, 0o64000014, 0o64000015, 0o64000016, 0o64000017] : List Nat).map (decodeTableWord 24) =
    [some (.zrg 0), some (.zrge 0), some (.zrne 0), some (.zra 0), some (.abv 0), some (.abve 0), some (.abvl 0), some (.abvle 0), some (.abvg 0), some (.abvge 0), some (.abvne 0), some (.abva 0), some (.slo 0), some (.sloe 0), some (.slol 0), some (.slole 0), some (.slog 0), some (.sloge 0), some (.slone 0), some (.sloa 0), some (.rex 0), some (.mr 0 0), some (.ml 0 0), some (.ce 0 0), some (.cne 0 0), some (.cei 0 0), some (.cnei 0 0), some (.cemi 0 0), some (.cnemi 0 0)] := by decide

/-- The words of 30_encoding.md R151 to R159 with every operand field zero, part 5. -/
theorem test_base_words_5 : ([0o34000000, 0o34000001, 0o34000004, 0o34000005, 0o34000006, 0o34000007, 0o34000010, 0o34000011, 0o34000012, 0o34000013, 0o34000014, 0o34000015, 0o34000016, 0o74000000, 0o20000006, 0o20200006, 0o20400006, 0o20600006, 0o21000006, 0o21200006, 0o21400006, 0o21600006, 0o60000006, 0o61000006, 0o61200006, 0o61400006, 0o61600006, 0o20000007, 0o20200007] : List Nat).map (decodeTableWord 24) =
    [some (.push 0 0), some (.pop 0 0), some (.ipush 0 0), some (.ipop 0 0), some (.pushi 0 0), some (.popi 0 0), some (.dpush 0 0), some (.dpop 0 0), some (.pushd 0 0), some (.popd 0 0), some (.regj 0 0), some (.regpj 0 0), some (.regjs 0 0), some (.iot 0 0), some (.locla 0), some (.loclr 0), some (.loclsa 0), some (.loclsr 0), some (.lomma 0), some (.lommr 0), some (.lommp 0), some (.lomdr), some (.stcl 0), some (.stmm 0), some (.nomm), some (.popmm 0), some (.stmdr), some (.rtcla 0), some (.rtclr 0)] := by decide

/-- The words of 30_encoding.md R151 to R159 with every operand field zero, part 6. -/
theorem test_base_words_6 : ([0o20400007, 0o20600007, 0o21000007, 0o21200007, 0o21600007, 0o60000007, 0o61000007, 0o61200007, 0o61400007, 0o61600007, 0o20000016, 0o20000216, 0o60000016, 0o60000216, 0o62000016, 0o62000216, 0o20000057, 0o20000257, 0o10000000, 0o20000000, 0o20200000, 0o21000000, 0o21200000, 0o21400000, 0o60000000, 0o61000000, 0o21600000, 0o61600000, 0o20000010] : List Nat).map (decodeTableWord 24) =
    [some (.rtclsa 0), some (.rtclsr 0), some (.rtmm 0), some (.rtmms 0), some (.rtmdr), some (.skcl 0), some (.skmm 0), some (.skmms 0), some (.pushmm 0), some (.skmdr), some (.td .box .av), some (.tdr .box .av), some (.tdi .box .av), some (.tdir .box .av), some (.tdix .box .av), some (.tdixr .box .av), some (.mmd .box), some (.mmdr .box), some (.sd false false .seta 0), some (.rlocla 0 .sac0), some (.rloclr 0 .sac0), some (.rlomma 0 .sac0), some (.rlommr 0 .sac0), some (.rlommp 0 .sac0), some (.rstcl 0 .sac0), some (.rstmm 0 .sac0), some (.rlomdr .sac0), some (.rstmdr .sac0), some (.rd .box .av .sac0)] := by decide

/-- R160 (a). -/
theorem test_reject_0 : decode 0o30000014 = .error .reservedAlu := by decide

/-- R160 (b). -/
theorem test_reject_1 : decode 0o34000017 = .error .reservedStack := by decide

/-- R160 (b). -/
theorem test_reject_2 : decode 0o34000002 = .error .reservedStack := by decide

/-- R160 (c). -/
theorem test_reject_3 : decode 0o64000027 = .error .reservedUnary := by decide

/-- R160 (c). -/
theorem test_reject_4 : decode 0o64000200 = .error .reservedUnary := by decide

/-- R160 (e). -/
theorem test_reject_5 : decode 0o60200006 = .error .reservedTransfer := by decide

/-- R160 (e). -/
theorem test_reject_6 : decode 0o21400007 = .error .reservedTransfer := by decide

/-- R160 (e). -/
theorem test_reject_7 : decode 0o20400000 = .error .reservedTransfer := by decide

/-- R160 (f). -/
theorem test_reject_8 : decode 0o22000016 = .error .reservedDraw := by decide

/-- R160 (f). -/
theorem test_reject_9 : decode 0o20000210 = .error .reservedDraw := by decide

/-- R160 (f). -/
theorem test_reject_10 : decode 0o20000017 = .error .reservedDraw := by decide

/-- R160 (g). -/
theorem test_reject_11 : decode 0o30000400 = .error .unusedBits := by decide

/-- R160 (g), R161. -/
theorem test_reject_12 : decode 0o21600026 = .error .unusedBits := by decide

/-- The second spellings decode to their row's instruction (R165, R187), and each is refused as ill-formed. -/
theorem test_alias_words : ([0o64000004, 0o74000010, 0o35000016, 0o35000076, 0o24200103, 0o24200147] : List Nat).map (decodeTableWord 24) =
    [some (.tst 0), some (.iot 0 0o10), some (.regjs 4 0), some (.regjs 4 3), some (.lshl 1 4), some (.lshld 1 6)] := by decide

theorem test_ill_formed_nop : ¬ Instr.WellFormed .nop := by decide
theorem test_ill_formed_sleep : ¬ Instr.WellFormed .sleep := by decide
theorem test_ill_formed_popj : ¬ Instr.WellFormed .popj := by decide
theorem test_ill_formed_popjof : ¬ Instr.WellFormed (.popjof 3) := by decide
theorem test_ill_formed_ashl : ¬ Instr.WellFormed (.ashl 1 4) := by decide
theorem test_ill_formed_ashld : ¬ Instr.WellFormed (.ashld 1 6) := by decide
theorem test_well_formed : Instr.WellFormed (.regjs 4 3) ∧ Instr.WellFormed (.tst 0) := by decide

/-! ### Single steps -/

/-- Parameters with 2^16 words of memory. -/
def small : Params := { Params.default with memSize := 65536 }

/-- Parameters with identity relocation. -/
def openUser : Params := { Params.default with relocation := .identity }

/-- The parameters of R660. -/
def vectors : Params := { openUser with vecLo := 0o40, vecHi := 0o41 }

/-- The start state: a program about to run at 01000 (R671, RunAt). -/
def start : State := { State.reset with pc := 0o1000 }

/-- The state with a word put into memory. -/
def poke (s : State) (a : Nat) (v : Word) : State := { s with mem := Memory.writeWord s.mem a v }

/-- A word of memory. -/
def peek (s : State) (a : Nat) : Word := Memory.readWord s.mem a

/-- The state after one step. -/
def nextOf (s : State) : State := outcomeState s (step s)

/-- The state after the instruction `w` has run. -/
def run (w : Nat) (s : State) : State := nextOf (s.withFetchWord 24 w)

/-- The drawing commands in the queue, without their snapshots. -/
def sent (s : State) : List (DrawOp × Form × Option Tuple) := s.queue.map fun c => (c.op, c.form, c.data)

/-- T10 line 1. -/
theorem test_lo_direct : (fun t => (t.reg 0, t.pc)) (run 0o300 (poke ({ start with pc := 0o100 } : State) 0o300 0o12345670)) = (0o12345670, 0o101) := by decide

/-- T10 line 2. -/
theorem test_lo_indirect : (fun t => t.reg 1) (run 0o40200300 (poke (poke start 0o300 0o2000) 0o2000 0o7)) = 0o7 := by decide

/-- T10 line 3. -/
theorem test_lo_nonexistent : (fun t => (t.reg 1, bitAt t.icr 18, t.pc)) (run 0o40200300 (poke ({ start with params := small, pc := 0o100 } : State) 0o300 0o40001000)) = (0o0, true, 0o101) := by decide

/-- T10 line 6. -/
theorem test_st_direct : (fun t => (peek t 0o300, t.reg 2)) (run 0o4400300 (start.setReg 2 0o76543210)) = (0o76543210, 0o76543210) := by decide

/-- R111, R120, as T10 line 8. -/
theorem test_st_nonexistent : (fun t => (peek t 0o200000, bitAt t.icr 18, t.pc)) (run 0o44400300 (poke (({ start with params := small, pc := 0o100 } : State).setReg 2 0o5) 0o300 0o200000)) = (0o0, true, 0o101) := by decide

/-- R202 example. -/
theorem test_rlo : (fun t => (t.reg 0, t.pc)) (run 0o30000062 (start.setReg 3 0o77000)) = (0o77000, 0o1001) := by decide

/-- T10 line 12. -/
theorem test_rloz : (fun t => (t.reg 0, t.pc)) (run 0o70000022 ((start.setReg 1 0o0).setReg 0 0o5)) = (0o0, 0o1002) := by decide

/-- T10 line 9. -/
theorem test_ilo : (fun t => t.reg 0) (run 0o30177772 start) = 0o7777 := by decide

/-- R205 example. -/
theorem test_ilom : (fun t => t.reg 13) (run 0o33200113 start) = 0o77777774 := by decide

/-- T10 line 14. -/
theorem test_iloz : (fun t => (t.reg 0, t.pc)) (run 0o70000012 start) = (0o0, 0o1002) := by decide

/-- T10 line 15. -/
theorem test_ilomz : (fun t => (t.reg 3, t.pc)) (run 0o70600033 start) = (0o77777777, 0o1001) := by decide

/-- R108, Example 1. -/
theorem test_j_indirect_indexed : (fun t => t.pc) (run 0o54601056 (poke (start.setReg 7 0o1) 0o1056 0o2736)) = 0o2737 := by decide

/-- R108, Example 1. -/
theorem test_j_indexed : (fun t => t.pc) (run 0o14601056 (start.setReg 7 0o1)) = 0o1057 := by decide

/-- R240 line 3. -/
theorem test_pushj : (fun t => (t.reg 5, peek t 0o777, t.reg 4, t.pc)) (run 0o11600300 ((({ start with pc := 0o100 } : State).setReg 5 0o1000).setReg 4 0o0)) = (0o777, 0o0, 0o101, 0o300) := by decide

/-- R240 line 5. -/
theorem test_pushj_fault : (fun t => (t.reg 5, t.reg 4, t.pc, bitAt t.icr 18)) (run 0o11600300 ((({ start with params := small, pc := 0o100 } : State).setReg 5 0o0).setReg 4 0o1)) = (0o0, 0o1, 0o101, true) := by decide

/-- R227 example. -/
theorem test_popj : (fun t => (t.pc, t.reg 4, t.reg 5)) (run 0o35000016 (poke ((start.setReg 4 0o101).setReg 5 0o777) 0o777 0o777)) = (0o101, 0o777, 0o1000) := by decide

/-- R240 line 8. -/
theorem test_popjof : (fun t => (t.pc, t.reg 4, t.reg 5)) (run 0o35177776 (poke ((start.setReg 4 0o101).setReg 5 0o777) 0o777 0o4)) = (0o10100, 0o4, 0o1000) := by decide

/-- R240 line 6. -/
theorem test_regj_wraps : (fun t => t.pc) (run 0o34000054 (start.setReg 0 0o77777777)) = 0o1 := by decide

/-- R225 example. -/
theorem test_regpj : (fun t => (t.reg 5, peek t 0o777, t.reg 4, t.pc)) (run 0o34200015 (((({ start with pc := 0o100 } : State).setReg 1 0o2000).setReg 5 0o1000).setReg 4 0o5)) = (0o777, 0o5, 0o101, 0o2000) := by decide

/-- R225 corner case: REGPJ TOS,1. -/
theorem test_regpj_tos : (fun t => (t.reg 4, t.pc)) (run 0o35000035 (({ start with pc := 0o100 } : State).setReg 5 0o1000)) = (0o101, 0o102) := by decide

/-- R226 example. -/
theorem test_regjs : (fun t => (t.pc, t.reg 4, t.reg 5)) (run 0o34400036 ((poke ((start.setReg 2 0o500).setReg 5 0o776) 0o776 0o101).setReg 4 0o333)) = (0o501, 0o101, 0o777) := by decide

/-- R240 line 9: the executed TSTE skips. -/
theorem test_xeq : (fun t => t.pc) (nextOf (run 0o12600400 (poke ({ start with pc := 0o100 } : State) 0o400 0o64000024))) = 0o102 := by decide

/-- R240 line 12. -/
theorem test_rex : (fun t => (t.reg 1, t.pc)) (nextOf (run 0o64200007 (start.setReg 1 0o64200001))) = (0o64200002, 0o1001) := by decide

/-- R262 line 1. -/
theorem test_push : (fun t => (peek t 0o400, t.reg 1)) (run 0o34000020 ((start.setReg 0 0o12345670).setReg 1 0o400)) = (0o12345670, 0o400) := by decide

/-- R262 line 6. -/
theorem test_ipush_same : (fun t => (t.reg 2, peek t 0o401)) (run 0o34400044 (start.setReg 2 0o400)) = (0o401, 0o401) := by decide

/-- R262 line 5. -/
theorem test_pushi_same : (fun t => (t.reg 2, peek t 0o400)) (run 0o34400046 (start.setReg 2 0o400)) = (0o401, 0o400) := by decide

/-- R262 line 4. -/
theorem test_dpush_fault : (fun t => (t.reg 2, bitAt t.icr 18)) (run 0o34200050 ((({ start with params := small } : State).setReg 2 0o0).setReg 1 0o1)) = (0o0, true) := by decide

/-- R253 example. -/
theorem test_dpush : (fun t => (t.reg 2, peek t 0o777)) (run 0o34200050 ((start.setReg 1 0o3).setReg 2 0o1000)) = (0o777, 0o3) := by decide

/-- R254, as its example. -/
theorem test_pushd : (fun t => (t.reg 2, peek t 0o2000)) (run 0o34600052 ((start.setReg 3 0o6).setReg 2 0o2000)) = (0o1777, 0o6) := by decide

/-- R262 line 7. -/
theorem test_pop_same : (fun t => t.reg 0) (run 0o34000001 (poke (start.setReg 0 0o500) 0o500 0o640)) = 0o640 := by decide

/-- R262 line 8. -/
theorem test_popi_same : (fun t => t.reg 3) (run 0o34600067 (poke (start.setReg 3 0o500) 0o500 0o7)) = 0o10 := by decide

/-- R262 line 10. -/
theorem test_popi_tos : (fun t => (t.reg 1, t.reg 4)) (run 0o34200107 (poke (start.setReg 4 0o101) 0o101 0o222)) = (0o222, 0o102) := by decide

/-- R262 line 9. -/
theorem test_ipop_same : (fun t => t.reg 3) (run 0o34600065 (poke (start.setReg 3 0o500) 0o501 0o7)) = 0o7 := by decide

/-- R258 example. -/
theorem test_dpop : (fun t => (t.reg 6, t.reg 0)) (run 0o34000151 (poke (start.setReg 6 0o2001) 0o2000 0o11)) = (0o2000, 0o11) := by decide

/-- R259, as its example. -/
theorem test_popd : (fun t => (t.reg 2, t.reg 3)) (run 0o34400073 (poke (start.setReg 3 0o2000) 0o2000 0o6)) = (0o6, 0o1777) := by decide

/-- R292 line 1. -/
theorem test_add_overflow : (fun t => (t.reg 0, bitAt t.icr 22)) (run 0o30000020 ((start.setReg 0 0o37777777).setReg 1 0o1)) = (0o40000000, true) := by decide

/-- R292 line 2. -/
theorem test_add_wraps : (fun t => (t.reg 0, bitAt t.icr 22)) (run 0o30000020 ((start.setReg 0 0o77777777).setReg 1 0o1)) = (0o0, false) := by decide

/-- R292 line 4. -/
theorem test_addnc_carry : (fun t => (t.reg 1, t.pc)) (run 0o70200060 ((start.setReg 1 0o77777777).setReg 3 0o77777777)) = (0o77777776, 0o1001) := by decide

/-- R292 line 5. -/
theorem test_addnc_no_carry : (fun t => (t.reg 1, t.pc)) (run 0o70200060 ((start.setReg 1 0o37777777).setReg 3 0o40000000)) = (0o77777777, 0o1002) := by decide

/-- R292 line 6. -/
theorem test_sub_overflow : (fun t => (t.reg 0, bitAt t.icr 22)) (run 0o30000061 ((start.setReg 0 0o40000000).setReg 3 0o1)) = (0o37777777, true) := by decide

/-- R292 line 7. -/
theorem test_subnb_no_borrow : (fun t => (t.reg 1, t.pc)) (run 0o70200061 start) = (0o0, 0o1002) := by decide

/-- R292 line 8. -/
theorem test_subnb_borrow : (fun t => (t.reg 1, t.pc)) (run 0o70200061 ((start.setReg 1 0o1).setReg 3 0o77777777)) = (0o2, 0o1001) := by decide

/-- R292 line 9. -/
theorem test_addi : (fun t => t.reg 0) (run 0o30177770 (start.setReg 0 0o77770001)) = 0o0 := by decide

/-- R292 line 10. -/
theorem test_subi : (fun t => t.reg 0) (run 0o30177771 start) = 0o77770001 := by decide

/-- R292 line 11. -/
theorem test_addinc : (fun t => (t.reg 2, t.pc)) (run 0o70400030 (start.setReg 2 0o77777777)) = (0o0, 0o1001) := by decide

/-- R292 line 13. -/
theorem test_subinb : (fun t => (t.reg 2, t.pc)) (run 0o70400031 (start.setReg 2 0o1)) = (0o0, 0o1002) := by decide

/-- R292 line 14. -/
theorem test_or : (fun t => t.reg 0) (run 0o30000025 ((start.setReg 0 0o52525252).setReg 1 0o25252525)) = 0o77777777 := by decide

/-- R283 example. -/
theorem test_orz : (fun t => t.pc) (run 0o70000025 start) = 0o1002 := by decide

/-- R287 example. -/
theorem test_and : (fun t => t.reg 0) (run 0o30000024 ((start.setReg 0 0o14).setReg 1 0o5)) = 0o4 := by decide

/-- R292 line 15. -/
theorem test_andz : (fun t => (t.reg 0, t.pc)) (run 0o70000024 ((start.setReg 0 0o52525252).setReg 1 0o25252525)) = (0o0, 0o1002) := by decide

/-- R292 line 18. -/
theorem test_andnz : (fun t => (t.reg 0, t.pc)) (run 0o70000027 ((start.setReg 0 0o40000000).setReg 1 0o40000000)) = (0o40000000, 0o1001) := by decide

/-- R292 line 16. -/
theorem test_xor : (fun t => t.reg 0) (run 0o30000023 ((start.setReg 0 0o52525252).setReg 1 0o77777777)) = 0o25252525 := by decide

/-- R285 example. -/
theorem test_xorz : (fun t => (t.reg 0, t.pc)) (run 0o70000023 ((start.setReg 0 0o123).setReg 1 0o123)) = (0o0, 0o1002) := by decide

/-- R292 line 17. -/
theorem test_xornz : (fun t => (t.reg 0, t.pc)) (run 0o70000026 ((start.setReg 0 0o52525252).setReg 1 0o52525252)) = (0o52525252, 0o1002) := by decide

/-- R300 example. -/
theorem test_ce : (fun t => t.pc) (run 0o64000032 ((start.setReg 0 0o7).setReg 1 0o7)) = 0o1002 := by decide

/-- R301 example. -/
theorem test_cne : (fun t => t.pc) (run 0o64000033 ((start.setReg 0 0o1).setReg 1 0o2)) = 0o1002 := by decide

/-- R335 line 16. -/
theorem test_cei : (fun t => t.pc) (run 0o64177774 (start.setReg 0 0o7777)) = 0o1002 := by decide

/-- R303 example. -/
theorem test_cnei : (fun t => t.pc) (run 0o64000135 (start.setReg 0 0o4)) = 0o1002 := by decide

/-- R335 line 17. -/
theorem test_cemi : (fun t => t.pc) (run 0o64177776 (start.setReg 0 0o77770001)) = 0o1002 := by decide

/-- R305 example. -/
theorem test_cnemi : (fun t => t.pc) (run 0o67200037 (start.setReg 13 0o77777776)) = 0o1002 := by decide

/-- R335 line 2. -/
theorem test_decge_zero : (fun t => (t.reg 0, t.pc)) (run 0o64000060 start) = (0o77777777, 0o1001) := by decide

/-- R335 line 3. -/
theorem test_decge_one : (fun t => (t.reg 0, t.pc)) (run 0o64000060 (start.setReg 0 0o1)) = (0o0, 0o1002) := by decide

/-- R335 line 4. -/
theorem test_incl : (fun t => (t.reg 0, t.pc, bitAt t.icr 22)) (run 0o64000101 (start.setReg 0 0o37777777)) = (0o40000000, 0o1002, false) := by decide

/-- R335 line 5. -/
theorem test_come : (fun t => (t.reg 0, t.pc)) (run 0o64000022 (start.setReg 0 0o77777777)) = (0o0, 0o1002) := by decide

/-- R335 line 6. -/
theorem test_coma : (fun t => (t.reg 2, t.pc)) (run 0o64400162 (start.setReg 2 0o123)) = (0o77777654, 0o1002) := by decide

/-- R335 line 7. -/
theorem test_negge_min : (fun t => (t.reg 0, t.pc)) (run 0o64000063 (start.setReg 0 0o40000000)) = (0o40000000, 0o1001) := by decide

/-- R335 line 8. -/
theorem test_negge_zero : (fun t => (t.reg 0, t.pc)) (run 0o64000063 start) = (0o0, 0o1002) := by decide

/-- R335 line 9. -/
theorem test_tstne : (fun t => t.pc) (run 0o64200144 start) = 0o1001 := by decide

/-- R335 line 10. -/
theorem test_tstle : (fun t => t.pc) (run 0o64200124 start) = 0o1002 := by decide

/-- R335 line 11. -/
theorem test_tstg : (fun t => t.pc) (run 0o64200044 (start.setReg 1 0o1)) = 0o1002 := by decide

/-- R335 line 12. -/
theorem test_nop : (fun t => (t.reg 0, t.pc)) (run 0o64000004 (start.setReg 0 0o5)) = (0o5, 0o1001) := by decide

/-- R315 example. -/
theorem test_zre : (fun t => (t.reg 0, t.pc)) (run 0o64000025 (start.setReg 0 0o5)) = (0o0, 0o1002) := by decide

/-- R335 line 14. -/
theorem test_abvl_min : (fun t => (t.reg 1, t.pc)) (run 0o64200106 (start.setReg 1 0o40000000)) = (0o40000000, 0o1002) := by decide

/-- R335 line 15. -/
theorem test_abvge : (fun t => (t.reg 1, t.pc)) (run 0o64200066 (start.setReg 1 0o77777777)) = (0o1, 0o1002) := by decide

/-- R335 line 19. -/
theorem test_slone : (fun t => (t.reg 3, t.pc)) (run 0o64600344 ({ start with switches := 0o40000001 } : State)) = (0o40000001, 0o1002) := by decide

/-- R375 line 1. -/
theorem test_ashr : (fun t => t.reg 0) (run 0o24000564 (start.setReg 0 0o40000000)) = 0o77777777 := by decide

/-- R375 line 2. -/
theorem test_lshr : (fun t => t.reg 0) (run 0o24000022 (start.setReg 0 0o40000001)) = 0o20000000 := by decide

/-- R375 line 3. -/
theorem test_lshl : (fun t => t.reg 0) (run 0o24000023 (start.setReg 0 0o40000001)) = 0o2 := by decide

/-- R375 line 4. -/
theorem test_cshr : (fun t => t.reg 0) (run 0o24000020 (start.setReg 0 0o40000001)) = 0o60000000 := by decide

/-- R375 line 5. -/
theorem test_cshl : (fun t => t.reg 0) (run 0o24000021 (start.setReg 0 0o40000001)) = 0o3 := by decide

/-- R347 example. -/
theorem test_ashrd : (fun t => (t.reg 1, t.reg 2)) (run 0o24200065 (start.setReg 1 0o77777741)) = (0o77777774, 0o10000000) := by decide

/-- R348 example. -/
theorem test_lshrd : (fun t => (t.reg 1, t.reg 2)) (run 0o24200066 ((start.setReg 1 0o77777774).setReg 2 0o10000000)) = (0o7777777, 0o41000000) := by decide

/-- R375 line 10. -/
theorem test_lshld_wraps : (fun t => (t.reg 15, t.reg 0)) (run 0o27600027 ((start.setReg 15 0o0).setReg 0 0o60000000)) = (0o1, 0o40000000) := by decide

/-- R349 example. -/
theorem test_lshld : (fun t => (t.reg 1, t.reg 2)) (run 0o24200147 ((start.setReg 1 0o7777777).setReg 2 0o41000000)) = (0o77777741, 0o0) := by decide

/-- R353 example. -/
theorem test_mr : (fun t => t.reg 1) (run 0o64200150 (start.setReg 1 0o77777741)) = 0o77000000 := by decide

/-- R354 example. -/
theorem test_ml : (fun t => t.reg 1) (run 0o64200051 (start.setReg 1 0o77000000)) = 0o7000000 := by decide

/-- R375 line 11. -/
theorem test_mr_zero : (fun t => t.reg 0) (run 0o64000010 (start.setReg 0 0o77777777)) = 0o0 := by decide

/-- R375 line 14. -/
theorem test_ml_23 : (fun t => t.reg 0) (run 0o64000571 (start.setReg 0 0o77777777)) = 0o0 := by decide

/-- R375 line 15. -/
theorem test_szb_one : (fun t => t.pc) (run 0o24000551 (start.setReg 0 0o2)) = 0o1001 := by decide

/-- R375 line 16. -/
theorem test_szb_zero : (fun t => t.pc) (run 0o24000551 start) = 0o1002 := by decide

/-- R375 line 17. -/
theorem test_clb : (fun t => t.reg 0) (run 0o24000052 (start.setReg 0 0o77777777)) = 0o67777777 := by decide

/-- R364 example. -/
theorem test_setb : (fun t => t.reg 1) (run 0o24200573 start) = 0o1 := by decide

/-- R361 example. -/
theorem test_sob : (fun t => t.pc) (run 0o24000010 (start.setReg 0 0o40000000)) = 0o1002 := by decide

/-- R365 example. -/
theorem test_sobcl : (fun t => (t.reg 0, t.pc)) (run 0o24000574 (start.setReg 0 0o3)) = (0o2, 0o1002) := by decide

/-- R366 example. -/
theorem test_szbcl : (fun t => (t.reg 0, t.pc)) (run 0o24000015 (start.setReg 0 0o40000005)) = (0o5, 0o1001) := by decide

/-- R367 example. -/
theorem test_sobset : (fun t => (t.reg 2, t.pc)) (run 0o24400316 start) = (0o4000, 0o1001) := by decide

/-- R368 example. -/
theorem test_szbset : (fun t => (t.reg 0, t.pc)) (run 0o24000137 start) = (0o1000000, 0o1002) := by decide

/-- R413 line 1. -/
theorem test_iot_read_icr : (fun t => (t.reg 1, t.icr)) (run 0o74200001 ({ start with icr := 0o100 } : State)) = (0o100, 0o100) := by decide

/-- R413 line 3. -/
theorem test_iot_user_illegal : (fun t => (t.reg 1, t.iodce, t.icr, t.pc)) (run 0o74200001 ({ start with mode := .user, params := openUser, protection := 0o177400 } : State)) = (0o0, 0o1, 0o20, 0o1001) := by decide

/-- R413 line 4. -/
theorem test_iot_settled : (fun t => t.pc) (run 0o74000036 ({ start with mode := .user, params := openUser, protection := 0o177400 } : State)) = 0o1002 := by decide

/-- R413 line 6. -/
theorem test_iot_dummy : (fun t => (t.iodce, t.icr, t.reg 0)) (run 0o74000372 (({ start with mode := .user, params := openUser, protection := 0o177400 } : State).setReg 0 0o500)) = (0o372, 0o20, 0o500) := by decide

/-- R413 line 9. -/
theorem test_iot_attention : (fun t => (t.pc, t.attention)) (run 0o74000041 ({ start with attention := true } : State)) = (0o1001, true) := by decide

/-- R389, U5. -/
theorem test_iot_load_iodce : (fun t => t.iodce) (run 0o74000006 (start.setReg 0 0o12345670)) = 0o270 := by decide

/-- R389, U5. -/
theorem test_iot_read_iodce : (fun t => t.reg 0) (run 0o74000005 (({ start with iodce := 0o270 } : State).setReg 0 0o77777777)) = 0o270 := by decide

/-- R401. -/
theorem test_iot_load_dir : (fun t => (t.dir, t.settled)) (run 0o74000032 (start.setReg 0 0o37700007)) = (0o37700006, true) := by decide

/-- R392. -/
theorem test_sleep : (fun t => (t.sleeping, t.pc)) (run 0o74000010 start) = (true, 0o1001) := by decide

/-- R413 line 11. -/
theorem test_user_mode_at_jump : (fun t => (t.mode, (nextOf (poke t 0o1001 0o10600600)).mode, (nextOf (poke t 0o1001 0o10600600)).pc))
    (run 0o74000011 start) = (Mode.executive, Mode.user, 0o600) := by decide

/-- The state of the scenarios of R660. -/
def scenario (pc : Word) : State := (poke (poke ((({ start with params := vectors, imr := 0o377, mode := .user, protection := 0o177400, pc := pc } : State).setReg 5 0o500).setReg 4 0o7) 0o40 0o11601000) 0o41 0o11602000)

/-- R660 scenario 1: the illegal IOT raises, and the interrupt is taken at test point (B), at the end of the same step. -/
theorem test_interrupt_b : (fun t => (t.iodce, t.icr, t.pc, t.reg 4, t.reg 5, peek t 0o477, t.mode))
    (nextOf (poke (scenario 0o200) 0o200 0o74000372)) = (0o372, 0o20, 0o1000, 0o201, 0o477, 7, Mode.executive) := by decide

/-- R660 scenario 2: a clock tick displaces the word at 0301. -/
theorem test_interrupt_a : (fun t => (t.reg 4, t.pc, t.lockLo))
    (nextOf (nextOf ({ scenario 0o301 with sync := 4, inputs := [.agent [] (.tick .sixtyHertz)] } : State))) = (0o302, 0o1000, true) := by decide

/-- R610, as R660 scenario 2: a tick while an ADD overflows with Overflow masked. The clock's interrupt is taken at (B), since the instruction
raised a condition, and saves the PC after the ADD. -/
theorem test_interrupt_b_clock : (fun t => (t.reg 0, t.reg 4, t.pc))
    (nextOf { poke (((scenario 0o200).setReg 0 0o37777777).setReg 1 0o37777777) 0o200 0o30000020 with
      imr := 0o10, params := { vectors with imrLoBit := 20 }, sync := 4, inputs := [.cycle [[.tick .sixtyHertz]]] }) =
      (0o77777776, 0o201, 0o1000) := by decide

/-- R660 scenario 5: the host's interrupt ends the sleep. -/
theorem test_interrupt_sleep : (fun t => (t.sleeping, t.hostInterrupt, t.lockHi, t.reg 4, t.pc))
    (nextOf ({ scenario 0o601 with mode := .executive, sleeping := true, hostInterrupt := true } : State)) =
      (false, false, true, 0o601, 0o2000) := by decide

/-- R660 scenario 7: an unimplemented word. -/
theorem test_unimplemented : (fun t => (t.icr, t.pc, t.regs)) (run 0o30000014 start) = (0o100, 0o1001, start.regs) := by decide

/-- R660 scenario 4: the read of nonexistent memory. -/
theorem test_nonexistent_memory : (fun t => (t.icr, t.pc, t.reg 0))
    (run 0o40000300 (poke ({ start with params := small } : State) 0o300 0o200000)) = (0o40, 0o1001, 0) := by decide

/-- R114, R126: the host writes between the indirect word and the operand of LO. -/
theorem test_host_between_indirect : (fun t => t.reg 1)
    (nextOf { State.withFetchWord (poke start 0o300 0o2000) 24 0o40200300 with inputs := [.cycle [[], [.hostWrite 0o2000 7]]] }) = 7 := by decide

/-- R126, R694: the host writes between the two words of a point and between two points of TDR. -/
theorem test_host_between_points : (fun t => (sent t, t.hostSeen))
    (nextOf { State.withFetchWord ((start.setReg 12 0o3000).setReg 13 0o77777776) 24 0o20400256 with inputs := [.cycle [[], [.hostWrite 0o3001 5], [.hostWrite 0o3002 6, .hostRead 0o3001]]] }) = ([(.drawTo, .absolute, some (.two 0 5)), (.drawTo, .absolute, some (.two 6 0))], [5]) := by decide

/-- T10 line 18. -/
theorem test_protection_inside : (fun t => t.reg 0) (run 0o2000 (poke ({ start with mode := .user, params := openUser, protection := 0o1002, pc := 0o2100 } : State) 0o2000 0o7)) = 0o7 := by decide

/-- T10 line 19. -/
theorem test_protection_outside : (fun t => (t.reg 0, bitAt t.icr 7, t.protFF)) (run 0o3000 (poke ({ start with mode := .user, params := openUser, protection := 0o1002, pc := 0o2100 } : State) 0o3000 0o7)) = (0o0, true, true) := by decide

/-- R485 line 2. -/
theorem test_locla_two : (fun t => (t.cd.wind, t.reg 12, t.reg 13)) (run 0o20000106 (poke (poke (poke (poke ((start.setReg 12 0o2000).setReg 13 0o77777776) 0o2000 0o1) 0o2001 0o2) 0o2002 0o3) 0o2003 0o4)) = ({ c0 := 1, c1 := 2, c2 := 3, c3 := 4 }, 0o2004, 0o0) := by decide

/-- R485 line 3. -/
theorem test_locla_positive : (fun t => (t.cd.wind, t.reg 12, t.reg 13)) (run 0o20000106 (poke (poke ((start.setReg 12 0o2000).setReg 13 0o3) 0o2000 0o1) 0o2001 0o2)) = ({ c0 := 1, c1 := 2, c2 := 0, c3 := 0 }, 0o2002, 0o3) := by decide

/-- R485 line 5. -/
theorem test_locla_3d_overwrites : (fun t => (t.cd.wind, t.reg 12)) (run 0o20000106 (poke (poke (poke (poke (({ start with dir := 0o1000000 } : State).setReg 12 0o2000) 0o2000 0o1) 0o2001 0o2) 0o2002 0o3) 0o2003 0o4)) = ({ c0 := 3, c1 := 4, c2 := 0, c3 := 0 }, 0o2004) := by decide

/-- R446 example. -/
theorem test_loclr : (fun t => t.cd.wind) (run 0o20200106 (poke (poke (({ start with cd := { ClipDiv.zero with save := { c0 := 0o100, c1 := 0o200, c2 := 0, c3 := 0 } } } : State).setReg 12 0o2000) 0o2000 0o10) 0o2001 0o20)) = { c0 := 0o110, c1 := 0o220, c2 := 0, c3 := 0 } := by decide

/-- R485 line 8. -/
theorem test_loclsa : (fun t => t.cd.inst) (run 0o20400366 (poke (poke (start.setReg 12 0o2000) 0o2000 0o1) 0o2001 0o2)) = { c0 := 0o77777777, c1 := 0o77777776, c2 := 1, c3 := 2 } := by decide

/-- R485 line 7. -/
theorem test_loclsr : (fun t => t.cd.inst) (run 0o20600366 (poke (poke (({ start with cd := { ClipDiv.zero with save := { c0 := 0o10, c1 := 0o20, c2 := 0, c3 := 0 } } } : State).setReg 12 0o2000) 0o2000 0o1) 0o2001 0o2)) = { c0 := 7, c1 := 0o16, c2 := 0o11, c3 := 0o22 } := by decide

/-- R485 line 9. -/
theorem test_skcl : (fun t => (peek t 0o2000, peek t 0o2001, peek t 0o2002, peek t 0o2003, t.reg 6, t.reg 13)) (run 0o60000047 ((({ start with cd := { ClipDiv.zero with view := { c0 := 1, c1 := 2, c2 := 3, c3 := 4 } } } : State).setReg 13 0o77777776).setReg 6 0o2000)) = (0o1, 0o2, 0o3, 0o4, 0o2004, 0o0) := by decide

/-- R485 line 10. -/
theorem test_rtcla : (fun t => (t.cd.view, t.reg 6, t.reg 13)) (run 0o20000067 (poke (poke (poke (poke ((start.setReg 13 0o77777776).setReg 6 0o2004) 0o2000 0o1) 0o2001 0o2) 0o2002 0o3) 0o2003 0o4)) = ({ c0 := 1, c1 := 2, c2 := 3, c3 := 4 }, 0o2000, 0o0) := by decide

/-- R485 line 11. -/
theorem test_skmms : (fun t => (peek t 0o3000, peek t 0o3017, t.mmAt 4 0, t.mmAt 7 3, t.mmAt 0 0, t.reg 6, t.reg 13)) (run 0o61200107 ((({ start with dir := 0o1000000, mm := Vector.ofFn fun i => BitVec.ofNat 24 (i.val + 1) } : State).setReg 13 0o77777774).setReg 6 0o3000)) = (0o21, 0o40, 0o1, 0o20, 0o1, 0o3020, 0o0) := by decide

/-- R472, one row. -/
theorem test_rtmms : (fun t => (t.mmAt 3 0, t.mmAt 7 0, t.mmAt 7 3, t.reg 6)) (run 0o21200167 (poke (poke (({ start with dir := 0o1000000, mm := Vector.ofFn fun i => BitVec.ofNat 24 (i.val + 1) } : State).setReg 6 0o3004) 0o3000 0o51) 0o3003 0o54)) = (0o35, 0o51, 0o54, 0o3000) := by decide

/-- R485 line 13. -/
theorem test_pushmm : (fun t => (t.mmAt 4 0, t.mmAt 7 3, t.reg 13, t.reg 12, t.reg 6)) (run 0o61400107 (({ start with dir := 0o1000000, mm := Vector.ofFn fun i => BitVec.ofNat 24 (i.val + 1) } : State).setReg 13 0o77777774)) = (0o1, 0o20, 0o0, 0o0, 0o0) := by decide

/-- R478 example. -/
theorem test_popmm : (fun t => (t.mmAt 0 0, t.mmAt 3 3, t.reg 13)) (run 0o61400106 (({ start with dir := 0o1000000, mm := Vector.ofFn fun i => BitVec.ofNat 24 (i.val + 1) } : State).setReg 13 0o77777774)) = (0o21, 0o40, 0o0) := by decide

/-- R450, as its example. -/
theorem test_lommr : (fun t => (t.mmAt 3 0, t.mmAt 3 3)) (run 0o21200066 (poke (poke (({ start with dir := 0o1000000, mm := Vector.ofFn fun i => BitVec.ofNat 24 (i.val + 1) } : State).setReg 12 0o2000) 0o2000 0o1) 0o2003 0o4)) = (0o16, 0o24) := by decide

/-- R451, R536. -/
theorem test_lommp : (fun t => (t.mmAt 0 0, t.mmAt 0 1)) (run 0o21400106 (poke (({ start with dir := 0o1000000, mm := (Vector.replicate 64 0).set 16 0o37777777 } : State).setReg 12 0o2000) 0o2000 0o1000)) = (0o1000, 0o0) := by decide

/-- R485 line 14. -/
theorem test_rlocla : (fun t => (t.cd.view, t.reg 13, t.reg 12)) (run 0o20000042 ((start.setReg 2 0o7).setReg 3 0o11)) = ({ c0 := 7, c1 := 0o11, c2 := 0, c3 := 0 }, 0o0, 0o0) := by decide

/-- R485 line 15. -/
theorem test_rstcl_3d : (fun t => (t.reg 8, t.reg 9, t.reg 10, t.reg 11)) (run 0o60000301 ({ start with dir := 0o1000000, cd := { ClipDiv.zero with save := { c0 := 1, c1 := 2, c2 := 3, c3 := 4 } } } : State)) = (0o1, 0o2, 0o3, 0o4) := by decide

/-- R485 line 16. -/
theorem test_stcl_fault : (fun t => (peek t 0o2000, t.reg 12, bitAt t.icr 7)) (run 0o60000006 (({ start with mode := .user, params := openUser, protection := 0o400, cd := { ClipDiv.zero with save := { c0 := 1, c1 := 2, c2 := 3, c3 := 4 } }, pc := 0o100 } : State).setReg 12 0o2000)) = (0o0, 0o2000, true) := by decide

/-- R485 line 17, R586 line 8. -/
theorem test_stmdr_3d : (fun t => (peek t 0o4000, peek t 0o4001, peek t 0o4002, peek t 0o4003, t.reg 12, t.reg 13)) (run 0o61600006 ((({ start with dir := 0o1000000, mdir := { moc := true, mom := false, curve := true, tr1 := false, tr0 := false, q := 5 } } : State).setReg 13 0o77777777).setReg 12 0o4000)) = (0o46240000, 0o5, 0o46240000, 0o5, 0o4004, 0o0) := by decide

/-- R485 line 18. -/
theorem test_nomm_2d : (fun t => (t.mmAt 0 0, t.reg 13)) (run 0o61200006 (({ start with mm := Vector.ofFn fun i => BitVec.ofNat 24 (i.val + 1) } : State).setReg 13 0o77777775)) = (0o1, 0o0) := by decide

/-- R476 example. -/
theorem test_nomm_3d : (fun t => (t.mmAt 0 0, t.reg 13)) (run 0o61200006 (({ start with dir := 0o1000000, mm := (Vector.replicate 64 0).set 0 0o400000 } : State).setReg 13 0o77777770)) = (0o20000000, 0o0) := by decide

/-- R461, R545. -/
theorem test_rlomdr : (fun t => (t.mdir.moc, t.mdir.q)) (run 0o21600000 ((start.setReg 0 0o60000000).setReg 1 0o11)) = (true, 0o11) := by decide

/-- R461: the DA field has no effect. -/
theorem test_rlomdr_da : (fun t => (t.mdir.moc, t.mdir.q, bitAt t.icr 17)) (run 0o21600120 ((start.setReg 0 0o60000000).setReg 1 0o11)) = (true, 0o11, false) := by decide

/-- R525 line 2. -/
theorem test_sd_setr : (fun t => (sent t, t.reg 8, t.reg 9)) (run 0o10203000 (poke (poke ((start.setReg 8 0o100).setReg 9 0o200) 0o3000 0o10) 0o3001 0o20)) = ([(.setPoint, .relative, some (.two 0o110 0o220))], 0o110, 0o220) := by decide

/-- R525 line 3. -/
theorem test_sd_tov : (fun t => (sent t, t.reg 8, t.reg 9)) (run 0o11403000 (poke (poke ((start.setReg 8 0o100).setReg 9 0o200) 0o3000 0o10) 0o3001 0o20)) = ([(.drawTo, .variableOrigin, some (.two 0o110 0o220))], 0o100, 0o200) := by decide

/-- R525 line 5. -/
theorem test_sd_frmr : (fun t => (sent t, t.reg 8, t.reg 9)) (run 0o13603000 (poke (poke ((start.setReg 8 0o100).setReg 9 0o200) 0o3000 0o10) 0o3001 0o20)) = ([(.drawFrom, .relative, some (.two 0o110 0o220))], 0o100, 0o200) := by decide

/-- R525 line 8. -/
theorem test_sd_cd3d : (fun t => (sent t, t.reg 10, t.reg 11)) (run 0o10002000 (poke (poke (poke ({ start with dir := 0o1400000 } : State) 0o2000 0o1) 0o2001 0o2) 0o2002 0o3)) = ([(.setPoint, .absolute, some (.four 0o1 0o2 0o3 0o3))], 0o3, 0o3) := by decide

/-- R525 line 9. -/
theorem test_sd_mm3d : (fun t => (sent t, t.reg 10, t.reg 11)) (run 0o11202000 (poke (poke (poke ((((({ start with dir := 0o1000000 } : State).setReg 8 0o10).setReg 9 0o10).setReg 10 0o10).setReg 11 0o37777777) 0o2000 0o1) 0o2001 0o2) 0o2002 0o3)) = ([(.drawTo, .relative, some (.four 0o11 0o12 0o13 0o37777777))], 0o13, 0o37777777) := by decide

/-- R525 line 12. -/
theorem test_tdr : (fun t => (sent t, t.reg 12, t.reg 13, t.reg 8, t.rsr)) (run 0o20600216 (poke (poke (poke (poke (poke (poke ((start.setReg 12 0o3000).setReg 13 0o77777775) 0o3000 0o10) 0o3001 0o10) 0o3002 0o1) 0o3003 0o1) 0o3004 0o2) 0o3005 0o2)) = ([(.setPoint, .absolute, some (.two 0o10 0o10)), (.drawTo, .variableOrigin, some (.two 0o11 0o11)), (.drawTo, .variableOrigin, some (.two 0o12 0o12))], 0o3006, 0o0, 0o10, 0o10400040) := by decide

/-- R525 line 19. -/
theorem test_td : (fun t => (sent t, t.reg 12, t.reg 13, t.rsr)) (run 0o20600016 (poke (poke (poke (poke (poke (poke ((start.setReg 12 0o3000).setReg 13 0o77777775) 0o3000 0o10) 0o3001 0o10) 0o3002 0o1) 0o3003 0o1) 0o3004 0o2) 0o3005 0o2)) = ([(.setPoint, .absolute, some (.two 0o10 0o10))], 0o3002, 0o77777775, 0o10400040) := by decide

/-- R525 line 17. -/
theorem test_tdir : (fun t => (sent t, t.reg 12)) (run 0o60600256 (poke (poke (poke (poke (poke (poke (poke (poke (poke (poke (((start.setReg 12 0o4000).setReg 13 0o77777776).setReg 7 0o100) 0o4000 0o5000) 0o4001 0o5010) 0o5000 0o1) 0o5001 0o2) 0o5010 0o3) 0o5011 0o4) 0o5100 0o11) 0o5101 0o12) 0o5110 0o13) 0o5111 0o14)) = ([(.setPoint, .absolute, some (.two 0o1 0o2)), (.drawTo, .absolute, some (.two 0o3 0o4))], 0o4002) := by decide

/-- R525 line 17. -/
theorem test_tdixr : (fun t => (sent t, t.reg 12, t.reg 7)) (run 0o62600256 (poke (poke (poke (poke (poke (poke (poke (poke (poke (poke (((start.setReg 12 0o4000).setReg 13 0o77777776).setReg 7 0o100) 0o4000 0o5000) 0o4001 0o5010) 0o5000 0o1) 0o5001 0o2) 0o5010 0o3) 0o5011 0o4) 0o5100 0o11) 0o5101 0o12) 0o5110 0o13) 0o5111 0o14)) = ([(.setPoint, .absolute, some (.two 0o11 0o12)), (.drawTo, .absolute, some (.two 0o13 0o14))], 0o4002, 0o100) := by decide

/-- R525 line 21. -/
theorem test_rd : (fun t => (sent t, t.reg 8, t.reg 9)) (run 0o20400135 ((((start.setReg 8 0o1).setReg 9 0o2).setReg 10 0o3).setReg 11 0o4)) = ([(.drawTo, .relative, some (.two 0o2 0o4)), (.drawTo, .relative, some (.two 0o5 0o10))], 0o5, 0o10) := by decide

/-- R525 line 24. -/
theorem test_mmdr : (fun t => (sent t, t.reg 13, t.rsr)) (run 0o20600257 (start.setReg 13 0o77777775)) = ([(.setPoint, .absolute, none), (.drawTo, .absolute, none), (.drawTo, .absolute, none)], 0o0, 0o10400100) := by decide

/-- R525 line 25. -/
theorem test_mmd : (fun t => (sent t, t.reg 13)) (run 0o20400057 (start.setReg 13 0o77777775)) = ([(.drawTo, .absolute, none)], 0o77777775) := by decide

/-- R525 line 26. -/
theorem test_resume : (fun t => (sent t, t.reg 12, t.reg 13, t.repeatBit)) (run 0o20200256 (poke (poke (poke (poke (poke (poke ((((({ start with rsr := 0o10400041 } : State).setReg 8 0o10).setReg 9 0o10).setReg 12 0o3002).setReg 13 0o77777776) 0o3000 0o10) 0o3001 0o10) 0o3002 0o1) 0o3003 0o1) 0o3004 0o2) 0o3005 0o2)) = ([(.drawTo, .variableOrigin, some (.two 0o11 0o11)), (.drawTo, .variableOrigin, some (.two 0o12 0o12))], 0o3006, 0o0, false) := by decide

/-- R525 line 27, with a parity error. -/
theorem test_repeat_fault : (fun t => (sent t, t.reg 13, t.reg 12, t.reg 8, t.rsr, bitAt t.icr 23)) (run 0o20600216 (poke (poke (poke (poke (poke (poke ((({ start with params := { small with parityBad := [0o3003] } } : State).setReg 12 0o3000).setReg 13 0o77777775) 0o3000 0o10) 0o3001 0o10) 0o3002 0o1) 0o3003 0o1) 0o3004 0o2) 0o3005 0o2)) = ([(.setPoint, .absolute, some (.two 0o10 0o10))], 0o77777776, 0o3003, 0o10, 0o10400041, true) := by decide

/-- R586 lines 1 to 4. -/
theorem test_fmul : (fmul .reference 0o20000000 0o20000000, fmul .reference 0o40000000 0o40000000, fmul .reference 0o37777777 0o100,
    fmul .reference 0o37777777 0o37777777, fmul .reference 0o60000000 0o20000000) =
    (0o10000000, 0o40000000, 0o100, 0o37777776, 0o70000000) := by decide

/-- The window of R586 lines 9 and 10, viewport whole, with Matrix Multiplier and Clipping Divider as the flags say. -/
def unitState (mma cda : Bool) : State :=
  { start with
    dir := setBitAt (setBitAt 0 2 mma) 3 cda
    mdir := { start.mdir with moc := true }
    mm := (((((Vector.replicate 64 0).set 0 0o37777777).set 5 0o37777777).set 8 0o100).set 9 0o200)
    cd := { ClipDiv.zero with wind := { c0 := 0o77777700, c1 := 0o77777700, c2 := 0o100, c3 := 0o100 },
                              view := { c0 := 0o77700001, c1 := 0o77700001, c2 := 0o77777, c3 := 0o77777 } } }

/-- R586 line 6: the 2D transformation. -/
theorem test_transform2d : (unitState true true).transform2d 0o10 0o20 = .two 0o110 0o220 := by decide

/-- R586 line 9: a line that leaves the window. -/
theorem test_clip_line : (fun t => (bitAt t.dir 21, t.cd.save.c0)) ((unitState false true).cdDraw true .drawTo (.two 0o200 0)) =
    (true, 0o200) ∧ clip2d (unitState false true).cd.wind { x := 0, y := 0, zx := 0, zy := 0 } { x := 128, y := 0, zx := 0, zy := 0 } =
    some { ln := 0, ld := 1, hn := 64, hd := 128 } := by decide

/-- R586 line 10: nothing visible. -/
theorem test_clip_outside : (fun t => (bitAt t.dir 21, t.cd.save.c0)) (({ unitState false true with
    cd := { (unitState false true).cd with save := { c0 := 0o200, c1 := 0o200, c2 := 0, c3 := 0 } } } : State).cdDraw true .drawTo
    (.two 0o300 0o300)) = (false, 0o300) := by decide

/-- R586 line 11. -/
theorem test_area_in_common : (fun f : Quad → Bool => (f { c0 := 0o50, c1 := 0o50, c2 := 0o200, c3 := 0o200 },
    f { c0 := 0o200, c1 := 0o200, c2 := 0o300, c3 := 0o300 }, f { c0 := 0o100, c1 := 0o100, c2 := 0o200, c3 := 0o200 }))
    (areaInCommon (unitState false true).cd.wind) = (true, false, true) := by decide

/-- R586 line 12: inside the pyramid, outside it, and behind the eye. -/
theorem test_clip3d : (fun f : Tuple → Option Span => ((f (.four 8 8 16 16)).isSome, (f (.four 24 8 16 16)).isSome,
    (f (.four 8 8 0o77777760 0o77777760)).isSome, (f (.four 8 8 0o20000000 0o20000000)).isSome))
    (fun p => clip3d (cdPoint p) (cdPoint p)) = (true, false, false, false) := by decide

/-- R586 line 13: graph mode. -/
theorem test_graph_mode : ({ ClipDiv.zero with
    cdir := { ClipDiv.zero.cdir with selfX := true },
    inst := { c0 := 0o10, c1 := 0, c2 := 0, c3 := 0 }, save := { c0 := 0o100, c1 := 0o50, c2 := 0, c3 := 0 } } : ClipDiv).graphPoint
    (.two 0o777 0o60) = .two 0o110 0o60 := by decide

/-- R586 line 14: CDIR loads. -/
theorem test_cdir_load : cdirLoad ClipDiv.zero.cdir 0 = ClipDiv.zero.cdir ∧
    cdirLoad ClipDiv.zero.cdir 0o02040000 = { ClipDiv.zero.cdir with stos := true, ztos := false } ∧
    cdirLoad { ClipDiv.zero.cdir with stos := true, curve := true } (cdirStore { ClipDiv.zero.cdir with mef := true }).1 =
      { ClipDiv.zero.cdir with mef := true } := by decide

/-! ### Witnesses: for each statement with hypotheses, a state and operands that meet them -/

/-- The outcome is a next state. -/
def isNext : Host.Outcome State Fault Refusal → Bool
  | .next _ => true
  | .fault _ => false
  | .refused _ => false

theorem exists_next {o : Host.Outcome State Fault Refusal} (h : isNext o = true) : ∃ t, o = .next t := by
  cases o with
  | next t => exact ⟨t, rfl⟩
  | fault _ => cases h
  | refused _ => cases h

/-- A state in user mode, pages 2 to 4 open to it, with identity relocation. -/
def userState : State := { start with mode := .user, params := openUser, protection := 0o1002, pc := 0o2100 }

theorem test_witness_inv : State.Inv start ∧ State.Inv userState ∧ State.Inv (poke start 5 7) :=
  ⟨⟨by decide, by decide⟩, ⟨by decide, by decide⟩, ⟨by decide, by decide⟩⟩

/-- EncodeRebuildsDecodedWord, and RLOMDR with the greatest DA field. -/
theorem test_witness_decoded : decode 0o30000062 = .ok (.rlo 0 3) ∧ decode 0o21600361 = .ok (.rlomdr .sx) := by decide

/-- UndefinedEncodingsAreRefused, one word a clause, in their order. -/
theorem test_witness_undefined :
    (fieldAt 0o30000014 1 3 = 6 ∧ 12 ≤ fieldAt 0o30000014 20 23) ∧ (bitAt 0o30000006 0 = false ∧ fieldAt 0o30000006 20 23 = 6) ∧
    (fieldAt 0o34000002 0 3 = 7 ∧ fieldAt 0o34000002 20 23 = 2) ∧ (fieldAt 0o64000027 0 3 = 13 ∧ fieldAt 0o64000027 16 19 ≠ 0) ∧
    (fieldAt 0o64000200 20 23 < 7 ∧ bitAt 0o64000200 16 = true) ∧ (fieldAt 0o60200006 4 7 = 1 ∧ bitAt 0o60200006 0 = true) ∧
    (fieldAt 0o21400007 4 7 = 6 ∧ fieldAt 0o21400007 20 23 = 7) ∧ (fieldAt 0o20400000 4 7 = 2 ∧ fieldAt 0o20400000 20 23 < 6) ∧
    (fieldAt 0o61200000 4 7 = 5 ∧ bitAt 0o61200000 0 = true) ∧ (fieldAt 0o22000010 1 3 = 4 ∧ bitAt 0o22000010 4 = true) ∧
    (fieldAt 0o20000017 20 23 = 15 ∧ fieldAt 0o20000017 17 19 ≠ 2) ∧ (fieldAt 0o22000016 20 23 = 14 ∧ bitAt 0o22000016 4 = true) ∧
    fieldAt 0o20000406 8 15 ≠ 0 ∧ fieldAt 0o24001000 8 14 ≠ 0 ∧ fieldAt 0o64000400 8 15 ≠ 0 ∧ fieldAt 0o64001010 8 14 ≠ 0 ∧
    fieldAt 0o30000400 8 15 ≠ 0 ∧ fieldAt 0o34000400 8 15 ≠ 0 ∧ fieldAt 0o21600026 16 19 ≠ 0 ∧ fieldAt 0o61200026 16 19 ≠ 0 := by
  decide

/-- StepRunsDecodedInstruction: RLO AC0,AC3 at 01000, in a step of its own and in a cycle that comes as an event, with a host write meanwhile. -/
theorem test_witness_step : (fun s : State => s.inputs = [] ∧ (fun u : State => u.sleeping = false ∧ u.xw = none ∧
      u.interruptTaken = false ∧ u.memRead u.pc = .ok 0o30000062 ∧ decodeWith u.params.stackBit22 0o30000062 = .ok (.rlo 0 3))
      { State.settle { s with turns := [] } with raised := false }) (poke start 0o1000 0o30000062) ∧
    (fun s : State => s.inputs = .cycle [[.hostWrite 0o2000 7]] :: [] ∧ (fun u : State => u.sleeping = false ∧ u.xw = none ∧
      u.interruptTaken = false ∧ u.memRead u.pc = .ok 0o30000062 ∧ decodeWith u.params.stackBit22 0o30000062 = .ok (.rlo 0 3))
      { s with inputs := [], turns := [[.hostWrite 0o2000 7]], raised := false })
      { poke start 0o1000 0o30000062 with inputs := [.cycle [[.hostWrite 0o2000 7]]] } := by decide

/-- CyclesWithoutAnInstructionRaise: an undefined word, and a PC past the memory that exists; no interrupt follows. -/
theorem test_witness_no_instruction : (fun s : State => s.inputs = [] ∧ s.turns = [] ∧ s.queue = [] ∧
      s.sleeping = false ∧ s.xw = none ∧ s.interruptTaken = false ∧ s.memRead s.pc = .ok 0o30000014 ∧
      decodeWith s.params.stackBit22 0o30000014 = .error .reservedAlu ∧
      State.interruptTaken { s.raise .unimplemented with raised := false } = false) (poke start 0o1000 0o30000014) ∧
    (fun s : State => s.inputs = [] ∧ s.turns = [] ∧ s.queue = [] ∧ s.sleeping = false ∧ s.xw = none ∧ s.interruptTaken = false ∧
      s.memRead s.pc = .error .nonexistentMemory) { start with params := small, pc := 0o200000 } := by decide

/-- ResetIsRunAtAndLegal: the mask bit of the high level is a bit of IMR. -/
theorem test_witness_reset : State.zero.params.imrHiBit < 24 := by decide

/-- EveryStepKeepsTheInvariant, EveryStepKeepsUserModeClean. -/
theorem test_witness_invariants : State.Inv userState ∧ userState.raised = false ∧ State.UserClean userState ∧ userState.mode = .user ∧
    ∃ t, step (userState.withFetchWord 24 0o2100) = .next t :=
  ⟨⟨by decide, by decide⟩, rfl, by unfold State.UserClean; decide, by decide, exists_next (by decide)⟩

/-- UserInstructionsKeepPrivilegedState: IOT 032, and SLEEP, which a user may not issue. -/
theorem test_witness_user : userState.mode = .user ∧ State.UserClean userState ∧ (∃ t, exec (.iot 1 0x1A) userState = .next t) ∧
    ∃ t, exec .sleep userState = .next t :=
  ⟨by decide, by unfold State.UserClean; decide, exists_next (by decide), exists_next (by decide)⟩

/-- OnlyJumpsAndIotsChangeControlState. -/
theorem test_witness_control : isJump (.add 0 1) = false ∧ isIot (.add 0 1) = false ∧ ∃ t, exec (.add 0 1) start = .next t :=
  ⟨by decide, by decide, exists_next (by decide)⟩

/-- ConditionsStayUntilIot: another instruction, and an IOT with another code. -/
theorem test_witness_conditions : (∀ r dev, Instr.add 0 1 = Instr.iot r dev → deviceCode false dev ≠ 2) ∧
    (∀ r dev, Instr.iot 0 3 = Instr.iot r dev → deviceCode false dev ≠ 2) ∧ bitAt (0o2 : Word) 22 = true ∧
    (∃ t, exec (.add 0 1) ({ start with icr := 0o2 } : State) = .next t) ∧ (∃ t, exec (.iot 0 3) ({ start with icr := 0o2 } : State) = .next t) :=
  ⟨fun _ _ h => (by cases h), fun _ _ h => (by cases h; decide), by decide, exists_next (by decide), exists_next (by decide)⟩

/-- EffectiveAddressOfThePagedForms: the last in-page address, an indirect word, and one that does not exist. -/
theorem test_witness_ea : ((0o377777 : Word).toNat = (0o201000 : Word).toNat / 65536 * 65536 + (0xFFFF#16).toNat) ∧
    (poke start 0o300 0o77777777).memRead 0o300 = .ok 0o77777777 ∧
    ({ start with params := small } : State).memRead 0o200000 = .error .nonexistentMemory := by decide

/-- MemoryAccessesCheckInOrder: the last word that exists, and the bounds of a user's pages. -/
theorem test_witness_access : ({ start with params := small } : State).physical 0o177777 = .ok 0o177777 ∧
    ({ start with params := small } : State).physical 0o200000 = .error .nonexistentMemory ∧
    userState.physical 0o1777 = .error .memoryProtection ∧ userState.physical 0o2000 = .ok 0o2000 ∧
    userState.physical 0o2777 = .ok 0o2777 ∧ userState.physical 0o3000 = .error .memoryProtection ∧
    ({ start with params := { small with parityBad := [5] } } : State).memRead 5 = .error .parity := by decide

/-- LoadAndStoreAtTheEffectiveAddress, JumpsGoToTheirTarget, PushJumpsSaveTheReturnAddress, PopJumpsReturn: direct and indirect
addresses, a readable word, a writable one; the stack at 01000. -/
theorem test_witness_addressed : start.Inv ∧ start.pendIon = false ∧ start.pendUser = false ∧ start.ea false false 0o300 = .ok 0o300 ∧
    (poke start 0o300 0o77777777).ea true false 0o300 = .ok 0o77777777 ∧ start.memRead 0o300 = .ok 0 ∧
    start.physical 0o300 = .ok 0o300 ∧
    (start.setReg 5 0o1000).physical ((start.setReg 5 0o1000).reg Reg.sp - 1) = .ok 0o777 ∧ 0o777 ∉ start.params.parityBad ∧
    start.physical (start.reg Reg.sp - 1) = .ok 0o77777777 ∧
    (fun s : State => s.ea true false 0o300 = .ok 0o2000 ∧ (s.afterEA true).memRead 0o2000 = .ok 7 ∧ (s.afterEA true).physical 0o2000 = .ok 0o2000)
      { poke start 0o300 0o2000 with turns := [[.hostWrite 0o2000 7]] } :=
  ⟨⟨by decide, by decide⟩, by decide⟩

/-- PopJumpsReturn, ReturnFromAnInterruptHandler. -/
theorem test_witness_pop_jump : (fun s : State => s.mode = .executive ∧ s.params.ionInnermost = false ∧
      s.memRead (s.reg Reg.sp) = .ok 0o123) (poke (start.setReg 5 0o777) 0o777 0o123) := by decide

/-- ExecuteHoldsTheWordForTheNextCycle: XEQ of a word, direct and indirect, and a word held. -/
theorem test_witness_execute : (fun s : State => s.ea false false 0o300 = .ok 0o300 ∧ (s.afterEA false).memRead 0o300 = .ok 0o30000062 ∧
      s.ea true false 0o301 = .ok 0o300 ∧ (s.afterEA true).memRead 0o300 = .ok 0o30000062)
      (poke (poke start 0o300 0o30000062) 0o301 0o300) ∧
    (fun s : State => s.inputs = [] ∧ (fun u : State => u.sleeping = false ∧ u.xw = some 0o30000062 ∧
      u.interruptTaken = false ∧ decodeWith u.params.stackBit22 0o30000062 = .ok (.rlo 0 3))
      { State.settle { s with turns := [] } with raised := false }) { start with xw := some 0o30000062 } := by decide

/-- PushesAndPopsMoveAndStep: every row, at both ends of the memory. -/
theorem test_witness_stack : start.Inv ∧ (∀ f ∈ pushRows, (start.setReg 2 0o1000).physical ((start.setReg 2 0o1000).reg 2 + f.2.1) =
      .ok (0o1000 + f.2.1).toNat) ∧ (∀ f ∈ popRows, start.memRead (start.reg 2 + f.2.1) = .ok 0) :=
  ⟨⟨by decide, by decide⟩, by decide, by decide⟩

/-- The statements over arithmetic, shifts and bits: their hypotheses only name values, or bound a count. -/
theorem test_witness_operands : (∀ b : BitCount, b.val ≤ 23 ∨ 24 ≤ b.val) ∧ (23 : BitCount).val ≤ 23 ∧ 24 ≤ (24 : BitCount).val ∧
    24 ≤ (31 : BitCount).val ∧ (31 : BitCount).val % 24 = 7 ∧ (zext 4095#12 : Word).toNat = 4095 := by decide

/-- IotMovesRegistersAndSetsFunctions, IllegalIotIsRecorded: each code that may be issued, and codes that may not. -/
theorem test_witness_iot : (∀ d ∈ iotCodes, start.mayIssue d) ∧ (∀ d ∈ userCodes, userState.mayIssue d) ∧
    (∀ f ∈ iotReads, start.mayIssue f.1) ∧ (∀ f ∈ iotLoads, start.mayIssue f.1) ∧
    (∀ d ∈ [0x07, 0x08, 0x09, 0x20, 0x24, 0x1E, 0x21, 0x1B, 0x1A], start.mayIssue d) ∧ ¬ start.mayIssue 0 ∧ ¬ start.mayIssue 0xF8 ∧
    ¬ userState.mayIssue 1 ∧ deviceCode false 0x1A = 0x1A ∧ deviceCode true 0xFF1A = 0x1A := by
  unfold State.mayIssue; decide

/-- MemoryConditionsAbandon: an indirect word, an operand and a stack word that do not exist, and a page a user may not use. -/
theorem test_witness_abandon : (fun s : State => s.ea true false 0o300 = .error .nonexistentMemory ∧ s.memRead 0o300 = .error .nonexistentMemory ∧
      s.physical 0o300 = .error .nonexistentMemory ∧ s.ea false false 0o300 = .ok 0o300 ∧
      s.physical (s.reg Reg.sp - 1) = .error .nonexistentMemory ∧ s.memRead (s.reg Reg.sp) = .error .nonexistentMemory ∧
      (∀ f ∈ pushRows, s.physical (s.reg 2 + f.2.1) = .error .nonexistentMemory) ∧
      (∀ f ∈ popRows, s.memRead (s.reg 2 + f.2.1) = .error .nonexistentMemory))
      ((({ start with params := { small with memSize := 0o100 } } : State).setReg 2 0o1000).setReg 5 0o1000) ∧
    (userState.ea true false 0o4000 = .error .memoryProtection ∧ userState.memRead 0 = .error .memoryProtection) := by decide

/-- A state in which an interrupt of the level can be taken; the vectors hold PUSHJ 02000 and PUSHJ 03000. -/
def interrupted (high : Bool) : State :=
  { poke (poke (start.setReg 5 0o1000) 0o40 0o11602000) 0o41 0o11603000 with
    params := vectors, imr := 0o300, icr := 0o100, hostInterrupt := high }

/-- The address in the vector of the level. -/
def handler (high : Bool) : BitVec 16 := if high then 0o3000 else 0o2000

/-- InterruptEntrySavesThePc, test point (A): both levels, with a word of XEQ held, and the high level asleep. -/
theorem test_witness_entry_a : (∀ high, (fun s : State => s.inputs = [] ∧ { State.settle { s with turns := [] } with raised := false } = s ∧
      s.canEnter high (handler high) 0o777 ∧ State.canEnter { s with xw := some 0 } high (handler high) 0o777) (interrupted high)) ∧
    State.canEnter { interrupted true with sleeping := true } true (handler true) 0o777 ∧
    (interrupted true).Inv ∧ (interrupted false).Inv := by
  unfold State.canEnter
  exact ⟨by decide, by decide, ⟨by decide, by decide⟩, ⟨by decide, by decide⟩⟩

/-- InterruptEntrySavesThePc, test point (B): the IOT 0372 raises Nonexistent Device, which is unmasked, fetched or held by XEQ. -/
theorem test_witness_entry_b : (fun s : State => s.inputs = [] ∧ { State.settle { s with turns := [] } with raised := false } = s ∧
      s.interruptTaken = false ∧ s.sleeping = false ∧ s.xw = none ∧ s.memRead s.pc = .ok 0o74000372 ∧
      decodeWith s.params.stackBit22 0o74000372 = .ok (.iot 0 0o372) ∧
      (fun x : State => x.raised = true ∧ State.canEnter { x with raised := false } false 0o2000 0o777)
        (outcomeState s (exec (.iot 0 0o372) { s with pc := s.pc + 1 })) ∧
      (fun x : State => x.raised = true ∧ State.canEnter { x with raised := false } false 0o2000 0o777)
        (outcomeState s (exec (.iot 0 0o372) { s with xw := none })))
      (poke { interrupted false with icr := 0, imr := 0o320 } 0o1000 0o74000372) := by
  unfold State.canEnter; decide

/-- SleepWaitsForTheHighLevel: with a low-level request. -/
theorem test_witness_sleep : (fun s : State => s.inputs = [] ∧ { State.settle { s with turns := [] } with raised := false } = s ∧
    s.sleeping = true ∧ s.highTaken = false ∧ s.lowRequest = true) { interrupted false with sleeping := true } := by decide

/-- OtherAgentsActBetweenCycles: each event, a tick with its SYNC bit and accesses at the last address that exists; and accesses of the host
in the middle of an instruction. -/
theorem test_witness_events : start.Inv ∧ (0o177777 : Word).toNat < small.memSize ∧
    (∀ e ∈ [AgentEvent.tick .host, .hostRegister 0o33, .hostRead 0o177777, .hostWrite 0o177777 1],
      ({ start with inputs := [.agent [] e] } : State).inputs = .agent [] e :: []) ∧ bitAt (0o10 : Word) 20 = true ∧
    (fun s : State => s.turns = (.hostWrite 0o177777 1 :: .hostRead 0o177777 :: []) :: []) { start with turns := [[.hostWrite 0o177777 1, .hostRead 0o177777]] } :=
  ⟨⟨by decide, by decide⟩, by decide, by decide, by decide, by decide⟩

/-- OutputWordsGoThroughTheWritePointer: a word that exists, one that does not, one in a page a user may not write, the count at its end, and
WC_STOPS_OUTPUT with WC zero and not. -/
theorem test_witness_output : start.Inv ∧ start.params.wcStopsOutput = false ∧
    (start.setReg Reg.wp 0o2000).physical ((start.setReg Reg.wp 0o2000).reg Reg.wp) = .ok 0o2000 ∧
    (start.setReg Reg.wc 0o77777777).reg Reg.wc + 1 = 0 ∧
    (fun s : State => s.physical (s.reg Reg.wp) = .error .nonexistentMemory)
      (({ start with params := small } : State).setReg Reg.wp 0o200000) ∧
    (userState.setReg Reg.wp 0o3000).physical ((userState.setReg Reg.wp 0o3000).reg Reg.wp) = .error .memoryProtection ∧
    (fun s : State => s.params.wcStopsOutput = true ∧ s.reg Reg.wc = 0 ∧ (s.setReg Reg.wc 1).reg Reg.wc ≠ 0)
      { start with params := { small with wcStopsOutput := true } } :=
  ⟨⟨by decide, by decide⟩, by decide, by decide, by decide, by decide, by decide, by decide⟩

/-- LoadsPutTheirDataInTheRegister, FourComponentLoadsIn2d. -/
theorem test_witness_addresses : (∀ a ∈ [12, 15], 12 ≤ (a : DevAddr).val) ∧ (∀ a ∈ [0, 8], (a : DevAddr).val ≤ 8) ∧
    start.params.mdirLayout = Params.default.mdirLayout := ⟨by decide, by decide, rfl⟩

/-- LoadsAndRetrievesOfOneRegister: one register in 2D, its two words at RP and below DSP, the host writing the second one
after the first is read. -/
theorem test_witness_one_register : (fun s : State => s.settle = s ∧ s.oneRegister ∧ (Tuple.two 1 9).is2d = s.twoD ∧
      s.reads (s.reg Reg.rp) 1 (Tuple.two 1 9).words s.gap ∧ s.reads (s.reg Reg.dsp - 1) (-1) (Tuple.two 9 1).words.reverse s.gap)
      { ((poke (poke start 0o3000 1) 0o3001 2).setReg 12 0o3000).setReg 6 0o3001 with
        turns := [[.hostWrite 0o3001 9, .hostWrite 0o2777 9]] } := by
  refine ⟨rfl, ?_, by decide, ?_, ?_⟩
  · unfold State.oneRegister; decide
  · simp only [Tuple.words, State.reads]; exact ⟨by decide, by decide, trivial⟩
  · simp only [Tuple.words, List.reverse, List.reverseAux, State.reads]; exact ⟨by decide, by decide, trivial⟩

/-- As above in a 3D mode, with the words of a four-word register; no other agent acts. -/
theorem test_witness_one_register_3d : (fun s : State => s.settle = s ∧ s.oneRegister ∧ (Tuple.four 0 0 0 0).is2d = s.twoD ∧
      s.reads (s.reg Reg.rp) 1 (Tuple.four 0 0 0 0).words s ∧ s.reads (s.reg Reg.dsp - 1) (-1) (Tuple.four 0 0 0 0).words.reverse s)
      (({ start with dir := 0o1000000 } : State).setReg 12 0o3000) := by
  refine ⟨rfl, ?_, by decide, ?_, ?_⟩
  · unfold State.oneRegister; decide
  · simp only [Tuple.words, State.reads]; exact ⟨by decide, by decide, by decide, by decide, rfl⟩
  · simp only [Tuple.words, List.reverse, List.reverseAux, State.reads]; exact ⟨by decide, by decide, by decide, by decide, rfl⟩

/-- StoresAndSinksOfOneRegister: the two words of a Clipping Divider register, of a matrix row (the slide's) and of DIRECTIVE in 2D at RP and
DSP, and the places they go to. -/
theorem test_witness_store : (fun s : State => s.settle = s ∧ s.Inv ∧ s.oneRegister ∧ s.turns = [] ∧
      (∀ w ∈ [Device.clippingDivider, .matrix, .directive], ∀ p ∈ [Reg.rp, Reg.dsp],
        (fun ws : List Word => ws.length = [0o3000, 0o3001].length ∧
          ∃ v, s.writes (s.reg p) ws v) (s.unload s.twoD w 0).words) ∧ [0o3000, 0o3001].Nodup ∧
      (∀ p ∈ [Reg.rp, Reg.dsp], ∀ (k : Nat) (h : k < [0o3000, 0o3001].length), s.physical (s.reg p + BitVec.ofNat 24 k) = .ok [0o3000, 0o3001][k]))
      ((start.setReg 12 0o3000).setReg 6 0o3000) := by
  refine ⟨rfl, ⟨by decide, by decide⟩, ?_, rfl, ?_, by decide, by decide⟩
  · unfold State.oneRegister; decide
  · intro w hw p hp
    simp only [List.mem_cons, List.not_mem_nil, or_false] at hw hp
    rcases hw with rfl | rfl | rfl <;> rcases hp with rfl | rfl <;>
      exact ⟨rfl, _, _, rfl, rfl⟩

/-- The two transfers of the statements on loads, and a store with its slide. -/
theorem test_witness_transfer_forms : loadsFrom (.locla 2) .cla 2 false false ∧ loadsFrom .rtmdr .mdr 0 true false ∧
    loadsFrom (.rtmms 5) .mm 5 true true ∧ storesThrough (.skmms 5) .matrix 5 Reg.dsp true ∧ storesThrough .stmdr .directive 0 Reg.rp false := by
  simp [loadsFrom, storesThrough]

/-- CountedLoadsAndRetrievesMoveOrStopAtAFault: RC = -2 with all words readable upward from RP and downward from DSP (k = 2), one register (k = 1),
and with the second word of the second register bad (k = 1, w = 1, and w = 0 downward). -/
theorem test_witness_counted : (fun s : State => s.settle = s ∧ s.turns = [] ∧ s.asksFor 2 ∧ (Tuple.two 0 0).is2d = s.twoD ∧
      (∀ j < 2, s.wordsAt (s.reg Reg.rp + BitVec.ofNat 24 (2 * j)) (Tuple.two 0 0).words ∧
        s.wordsAt (s.reg Reg.dsp - BitVec.ofNat 24 (2 * (j + 1))) (Tuple.two 0 0).words))
      (((start.setReg 12 0o3000).setReg 13 0o77777776).setReg 6 0o4000) ∧ start.asksFor 1 ∧
    (fun s : State => s.settle = s ∧ s.turns = [] ∧ s.asksFor 2 ∧ s.wordsAt (s.reg Reg.rp + BitVec.ofNat 24 0) (Tuple.two 0 0).words ∧
      s.memRead (s.reg Reg.rp + BitVec.ofNat 24 2 + BitVec.ofNat 24 0) = .ok 0 ∧
      s.memRead (s.reg Reg.rp + BitVec.ofNat 24 2 + BitVec.ofNat 24 1) = .error .parity ∧
      s.wordsAt (s.reg Reg.dsp - BitVec.ofNat 24 2) (Tuple.two 0 0).words ∧
      s.memRead (s.reg Reg.dsp - BitVec.ofNat 24 4 + BitVec.ofNat 24 1) = .ok 0 ∧
      s.memRead (s.reg Reg.dsp - BitVec.ofNat 24 4 + BitVec.ofNat 24 0) = .error .parity)
      (((({ start with params := { small with parityBad := [0o3003] } } : State).setReg 12 0o3000).setReg 13 0o77777776).setReg 6 0o3007) := by
  unfold State.asksFor State.counted State.oneRegister State.wordsAt
  exact ⟨⟨rfl, rfl, by decide, by decide, by decide⟩, by decide, rfl, rfl, by decide, by decide, by decide, by decide, by decide, by decide,
    by decide⟩

/-- CountedStoresAndSinksMoveOrStopAtAFault: two registers of two words written from RP, and one register and one word before the end of
memory. -/
theorem test_witness_counted_stores : (fun s : State => s.settle = s ∧ s.turns = [] ∧ s.asksFor 2 ∧
      ∃ v, s.writes (s.reg Reg.rp) ((List.range 2).flatMap (fun _ => [0, 0]) ++ [0, 0].take 0) v) ((start.setReg 12 0o3000).setReg 13 0o77777776) ∧
    (fun s : State => s.settle = s ∧ s.turns = [] ∧ s.asksFor 2 ∧
      (∃ v, s.writes (s.reg Reg.rp) ((List.range 1).flatMap (fun _ => [0, 0]) ++ [0, 0].take 1) v) ∧
      s.physical (s.reg Reg.rp + BitVec.ofNat 24 (2 * 1 + 1)) = .error .nonexistentMemory)
      ((({ start with params := small } : State).setReg 12 0o177775).setReg 13 0o77777776) := by
  unfold State.asksFor State.counted State.oneRegister
  exact ⟨⟨rfl, rfl, by decide, _, _, rfl, _, rfl, _, rfl, rfl⟩, rfl, rfl, by decide, ⟨_, _, rfl, _, rfl, rfl⟩, by decide⟩

/-- PushAndPopMoveMatrixRows, NormalizeShiftsMatrixA. -/
theorem test_witness_rows : start.settle = start ∧ start.turns = [] ∧ start.oneRegister ∧ start.repeatBit = false ∧
    (start.setReg 13 0o77777774).counted 4 := by
  unfold State.oneRegister State.counted
  exact ⟨rfl, rfl, by decide, by decide, by decide⟩

/-- RegisterTransfers, RegisterAndMatrixDraws: a point in AC0 and AC1, and in 3D two points in X, Y, Z, W, AC0 ... by DX. -/
theorem test_witness_registers : (fun s : State => s.settle = s ∧ s.repeatBit = false ∧ s.turns = [] ∧ s.wordsIn 0 (.two 7 0) ∧
      s.wordsIn (0 + Fin.ofNat 16 2) (.two 0 0) ∧ bitAt (s.reg Reg.rc) 0 = false ∧ bitAt s.dir 4 = false)
      (start.setReg 0 7) ∧
    (fun s : State => s.wordsIn 8 (.four 0 0 0 0) ∧ s.wordsIn (8 + Fin.ofNat 16 4) (.four 0 0 0 0))
      { start with dir := 0o1000000 } := by
  unfold State.wordsIn
  exact ⟨⟨rfl, by decide⟩, by decide⟩

/-- RepeatStatusResumesTheRecordedSequence: a load/unload sequence with an instruction (LOMMP, RTMMS), one without a register address (NOMM), a
dash of R423, a register form's (RSTMM), and a drawing sequence. -/
theorem test_witness_resume :
    (fun r : Word → State => (r 0o6000303).recordsTransfer false false 6 1 ∧ (r 0o6400245).recordsTransfer false true 5 2 ∧
      (r 0o7000241).recordsTransfer true false 5 0 ∧ (r 0o6400301).recordsTransfer false true 6 0 ∧
      (r 0o7000225).recordsTransfer true false 4 10 ∧ (r 0o10400101).drawRecorded .drawTo .aa true ∧ ∀ v, (r v).settle = r v)
      (fun v => { start with rsr := v }) := by
  unfold State.recordsTransfer State.drawRecorded
  exact ⟨by decide, by decide, by decide, by decide, by decide, by decide, fun _ => rfl⟩

/-- SingleDrawSendsItsPoint: two words after an indirect word, the host writing meanwhile, and the three words of a 3D point. -/
theorem test_witness_single_draw : (fun s : State => s.ea true false 0o300 = .ok 0o3000 ∧ [1, 9].length = s.dim.nf.toNat ∧
      (s.afterEA true).reads 0o3000 1 [1, 9] (s.afterEA true).gap)
      { poke (poke start 0o300 0o3000) 0o3001 2 with turns := [[.hostWrite 0o3000 1], [.hostWrite 0o3001 9]] } ∧
    (fun s : State => s.ea false false 0o3000 = .ok 0o3000 ∧ [0, 0, 0].length = s.dim.nf.toNat ∧ (s.afterEA false).reads 0o3000 1 [0, 0, 0] s)
      { start with dir := 0o1000000 } := by
  simp only [State.reads]
  exact ⟨⟨by decide, by decide, by decide, by decide, trivial⟩, by decide, by decide, by decide, by decide, by decide, rfl⟩

/-- TableDrawsOfOneOperation, direct and indirect. -/
theorem test_witness_table_draw : (fun s : State => s.repeatBit = false ∧ bitAt (s.reg Reg.rc) 0 = false ∧ [0o5000, 0].length = s.dim.nf.toNat ∧
      s.reads (s.reg Reg.rp) 1 [0o5000, 0] s ∧ s.memRead (s.reg Reg.rp) = .ok 0o5000 ∧
      (fun t : State => t.reads (0o5000 + s.reg Reg.ir) 1 [0, 0] t) (State.gap (s.setReg Reg.rp (s.reg Reg.rp + 1))))
      (poke ((start.setReg 12 0o3000).setReg 7 0o10) 0o3000 0o5000) := by
  simp only [State.reads]
  exact ⟨by decide, by decide, by decide, ⟨by decide, by decide, rfl⟩, by decide, by decide, by decide, rfl⟩

/-- TableDrawRepeatsItsCount, MMDR in RegisterAndMatrixDraws: RC = -3, with overlap. -/
theorem test_witness_table_repeat : (fun s : State => s.counted 3 ∧ s.turns = [] ∧ bitAt s.dir 4 = false ∧
      ∀ k < 3, [0, 0].length = s.dim.nf.toNat ∧ s.wordsAt (s.reg Reg.rp + BitVec.ofNat 24 (s.dim.nf.toNat * k)) [0, 0])
      ((start.setReg 12 0o3000).setReg 13 0o77777775) := by
  unfold State.counted State.wordsAt; decide

/-- TableDrawRepeatsItsCount: RC = -3, and the second word of the second point is bad (k = 1). -/
theorem test_witness_table_fault : (fun s : State => s.counted 3 ∧ s.turns = [] ∧ bitAt s.dir 4 = false ∧
      s.wordsAt (s.reg Reg.rp + BitVec.ofNat 24 (s.dim.nf.toNat * 0)) [0, 0] ∧ s.wordsAt (s.reg Reg.rp + BitVec.ofNat 24 (s.dim.nf.toNat * 1)) [0] ∧
      s.memRead (s.reg Reg.rp + BitVec.ofNat 24 (s.dim.nf.toNat * 1 + 1)) = .error .parity)
      ((({ start with params := { small with parityBad := [0o3003] } } : State).setReg 12 0o3000).setReg 13 0o77777775) := by
  unfold State.counted State.wordsAt; decide

/-- MemoryConditionsAbandon: a table draw stopped at its first word, at its second, at its pointer's word and past it; SD stopped at its second. -/
theorem test_witness_point_stops :
    (fun s : State => s.repeatBit = false ∧ s.pointStops false false .parity s 0 ∧ s.pointStops true false .parity s 0)
      (({ start with params := { small with parityBad := [0o3000] } } : State).setReg 12 0o3000) ∧
    (fun s : State => s.repeatBit = false ∧ s.pointStops false false .parity s.gap 1 ∧ (s.afterEA false).reads 0o3000 1 [0o5001] s ∧
      s.ea false false 0o3000 = .ok 0o3000 ∧ s.gap.memRead (0o3000 + BitVec.ofNat 24 1) = .error .parity)
      (poke (({ start with params := { small with parityBad := [0o3001] } } : State).setReg 12 0o3000) 0o3000 0o5001) ∧
    (fun s : State => s.pointStops true true .parity s.gap 1)
      (poke ((({ start with params := { small with parityBad := [0o5011] } } : State).setReg 12 0o3000).setReg 7 0o10) 0o3000 0o5001) := by
  exact ⟨⟨by decide, .inl ⟨by decide, rfl, rfl⟩, .inl ⟨by decide, rfl, rfl⟩⟩, ⟨by decide, .inr ⟨_, 0o3000, [0o5001], ⟨rfl, rfl, rfl, by decide⟩, by decide,
    .inr ⟨_, by decide, ⟨by decide, rfl⟩, rfl⟩, by decide⟩, ⟨by decide, rfl⟩,
    by decide, by decide⟩,
    .inr ⟨_, 0o5011, [], ⟨0o5001, by decide, rfl, by decide, rfl⟩, by decide, .inl ⟨rfl, rfl⟩, by decide⟩⟩

/-- R604, D25: TD stopped at the second word of its point changes no register, and REPEAT STATUS stays. -/
theorem test_td_fault : (fun t : State => (t.regs, t.rsr, t.icr, t.pc))
    (run 0o20600016 (({ start with params := { small with parityBad := [0o3001] } } : State).setReg 12 0o3000)) =
    ((start.setReg 12 0o3000).regs, start.rsr, 1, 0o1001) := by decide

/-- FractionalProductsRound and ClippingKeepsExactlyTheInside. -/
theorem test_witness_numbers : ¬ ((0x800000 : Word) = 0x800000 ∧ (0x7FFFFF : Word) = 0x800000) ∧
    (0x400000 : Word).toInt * (0x400000 : Word).toInt % 8388608 = 0 ∧ (0 : Int) ≤ 0 ∧ (0 : Int) ≤ 1 ∧ (0 : Int) < 1 := by decide

/-- VisibleLinesReachTheScope and, in 2D, DrawingMovesSaveAndSetsHit: a line from (0, 0) to (010, 020) in the window of R586, with its map. -/
theorem test_witness_visible : (fun s : State => s.params.arith = .reference ∧
      s.cd.cdir = { s.cd.cdir with stos := true, stom := false, ztos := false, ptom := false, ntom := false, mef := false,
                                   selfX := false, selfY := false } ∧ s.cd.violation = false ∧
      (∀ x ∈ [cdInt s.cd.save.c0, cdInt 0o10], s.cd.wind.c0.toInt ≤ x ∧ x ≤ s.cd.wind.c2.toInt) ∧
      (∀ y ∈ [cdInt s.cd.save.c1, cdInt 0o20], s.cd.wind.c1.toInt ≤ y ∧ y ≤ s.cd.wind.c3.toInt) ∧
      s.cd.wind.c0.toInt < s.cd.wind.c2.toInt ∧ s.cd.wind.c1.toInt < s.cd.wind.c3.toInt)
      { start with cd := { (unitState false true).cd with cdir := { ClipDiv.zero.cdir with stos := true } } } := by decide

/-- MatrixMultiplierTransformsAndRoutes, CurvesIterateTheMatrices: the unit bypassed and not, in curve mode and not, with output to memory
and without, under the reference arithmetic; the 2D and 3D forms of a dataless command. -/
theorem test_witness_matrix : (fun s : State => s.params.arith = .reference ∧ s.mdir.curve = false ∧ s.mdir.mom = false ∧ s.mdir.moc = true) (unitState true true) ∧
    (fun s : State => s.params.arith = .reference ∧ s.mdir.curve = true ∧ s.mdir.mom = true)
      { unitState true true with mdir := { start.mdir with mom := true, curve := true } } ∧
    Dim.is2d .twoD = true ∧ Dim.is2d .cd3d = false ∧ DrawOp.drawTo ≠ .box := by decide

/-- A graph with X taken from SAVE + INSTANCE, output to the scope, whose scope is forbidden; SAVE is (0, 4, 16, 16). -/
def graphState : State :=
  { start with cd := { ClipDiv.zero with
      cdir := { ClipDiv.zero.cdir with stos := true, selfX := true }, select := 1,
      inst := { c0 := 2, c1 := 0, c2 := 0, c3 := 0 }, save := { c0 := 0, c1 := 4, c2 := 16, c3 := 16 } } }

/-- DrawingMovesSaveAndSetsHit in 3D, with SELF and a scope violation: the line to (2, 8, 16, 16) lies in the pyramid. -/
theorem test_witness_graph_3d : (Tuple.four 0o777 8 16 16).is2d = false ∧ graphState.cd.newPoint (.four 0o777 8 16 16) = ⟨2, 8, 16, 16⟩ ∧
    graphState.cd.oldPoint false = ⟨0, 4, 16, 16⟩ ∧ meetsPyramid 1 ⟨0, 4, 16, 16⟩ ⟨2, 8, 16, 16⟩ ∧
    graphState.cd.cdir.stos = true ∧ graphState.cd.cdir.stom = false ∧ graphState.cd.cdir.ptom = false ∧ graphState.cd.cdir.ntom = false ∧
    graphState.cd.violation = true :=
  ⟨rfl, by decide, by decide, ⟨0, 1, by decide, by decide, by decide, by decide, by decide⟩, rfl, rfl, rfl, rfl, by decide⟩

/-- R565, R566, R570, R582, R601: that line makes X the sum, sets HIT and records the scope violation. -/
theorem test_graph_3d : (fun t : State => (t.cd.save, bitAt t.dir 21, t.icr, t.mem)) (graphState.cdDraw true .drawTo (.four 0o777 8 16 16)) =
    ({ c0 := 2, c1 := 8, c2 := 16, c3 := 16 }, true, 0o400000, []) := by decide

/-- OutputGroupsAndPerspective: a line and a set point in the window of R586, and in 3D; in Minimum Effort Mode the page point alone. -/
theorem test_witness_groups : (fun s : State => s.params.arith = .reference ∧ s.cd.cdir.mef = false ∧
      s.cd.canMap true (s.cd.newPoint (.two 0o10 0o20)) ∧ s.cd.inView true (s.cd.newPoint (.two 0o10 0o20)) ∧
      s.cd.canMap true (s.cd.oldPoint true) ∧ s.cd.inView true (s.cd.oldPoint true) ∧ s.cd.canMap true (s.cd.newPoint (.two 0o1000 0)) ∧
      s.cd.canMap false (s.cd.newPoint (.four 8 (-8) 16 16)) ∧ s.cd.inView false (s.cd.newPoint (.four 8 (-8) 16 16)))
      (unitState false true) ∧
    graphState.cd.canMap false (graphState.cd.oldPoint false) ∧ graphState.cd.inView false (graphState.cd.oldPoint false) ∧
    (fun c : ClipDiv => c.cdir.mef = true ∧ c.cdir.stom = false ∧ c.cdir.ptom = true ∧ c.cdir.ntom = false)
      { ClipDiv.zero with cdir := { ClipDiv.zero.cdir with mef := true, ptom := true } } := by
  unfold ClipDiv.canMap ClipDiv.inView; decide

/-- BoxSetsWindowAndViewport: an instance that lies partly in the window of R586, with a master of both extents, and one that lies outside. -/
theorem test_witness_box : (fun (s : State) (q : Tuple) => q.is2d = true ∧ s.params.arith = .reference ∧ s.cd.wind.c0 ≠ s.cd.wind.c2 ∧
      s.cd.wind.c1 ≠ s.cd.wind.c3 ∧ (fun i w : Quad => max i.c0.toInt w.c0.toInt ≤ min i.c2.toInt w.c2.toInt ∧
        max i.c1.toInt w.c1.toInt ≤ min i.c3.toInt w.c3.toInt ∧ i.c0 ≠ i.c2 ∧ i.c1 ≠ i.c3) s.cd.inst s.cd.wind ∧
      (s.cd.oldPoint true).x ≠ (s.cd.newPoint q).x ∧ (s.cd.oldPoint true).y ≠ (s.cd.newPoint q).y)
      { unitState false true with cd := { (unitState false true).cd with inst := { c0 := 0o50, c1 := 0, c2 := 0o150, c3 := 0o40 } } } (.two 0o10 0o20) ∧
    (fun i w : Quad => max i.c0.toInt w.c0.toInt > min i.c2.toInt w.c2.toInt)
      { c0 := 0o200, c1 := 0, c2 := 0o300, c3 := 0o40 } (unitState false true).cd.wind := by decide

/-- R114, R126, R546, R555: the host reads an address before and after the word of NAME goes there, which follows two words of the Matrix
Multiplier. -/
theorem test_host_between_units : (fun t : State => (t.hostSeen, peek t 0o3000, peek t 0o3003))
    (State.apply ({ unitState true true with
        mdir := { start.mdir with moc := true, mom := true },
        cd := { (unitState true true).cd with cdir := { ClipDiv.zero.cdir with ntom := true }, name := (5, 6) },
        turns := [[], [.hostRead 0o3002], [.hostRead 0o3002]] }.setReg Reg.wp 0o3000)
      { op := .setPoint, form := .absolute, data := some (.two 0 0), mma := true, cda := true, nov := false, dim := .twoD }) =
    ([5, 0], 0o100, 6) := by decide

/-- R128, R495: under NOV the host comes between the point of SD and its output. -/
theorem test_host_before_output : (fun t : State => (t.hostSeen, peek t 0o3100))
    (nextOf { State.withFetchWord ((poke (poke { start with
        dir := setBitAt (setBitAt 0 3 true) 4 true, cd := { ClipDiv.zero with cdir := { ClipDiv.zero.cdir with ptom := true } } } 0o3000 8)
        0o3001 9).setReg Reg.wp 0o3100) 24 0o10003000 with
      inputs := [.cycle [[], [], [.hostRead 0o3100], [.hostRead 0o3100]]] }) = ([8, 0], 8) := by decide

/-- R557: in Minimum Effort Mode a line seen in both pyramids is output as one of its two parts. -/
theorem test_one_point_of_two_parts (s : State) (p q : CdPoint) (v w : Span) (h : s.cd.cdir.mef = true) :
    ∃ x ∈ [v, w], s.line3d p q (some v) (some w) = (s.useFree 1).partIfVisible false p q (some x) := by
  unfold State.line3d State.onePart
  rw [if_pos h]
  cases bitAt (s.free 0) 0
  · exact ⟨v, .head _, rfl⟩
  · exact ⟨w, .tail _ (.head _), rfl⟩

/-- R127, R602, R681: the write count reaches zero as SD's point is output, under NOV while SD waits, else before the next instruction; in both
TOS is the address of the next instruction, to which no decrement is needed. -/
theorem test_write_count_interrupt : ∀ nov,
    (fun s : State => (fun t : State => (t.icr, t.reg 4, t.pc, peek t 0o3100, peek t 0o3101)) (if nov then nextOf s else nextOf (nextOf s)))
    ((((poke (poke (poke { interrupted false with
        icr := 0, imr := 0o304, dir := setBitAt (setBitAt 0 3 true) 4 nov,
        cd := { ClipDiv.zero with cdir := { ClipDiv.zero.cdir with ptom := true } } } 0o3000 8) 0o3001 9) 0o1000 0o10003000).setReg
      Reg.wp 0o3100).setReg Reg.wc 0o77777777)) = (4, 0o1001, 0o2000, 8, 9) := by decide

end Sys2Proof.Tests
end

section
/-!
Loading registers from registers and immediates (R202 to R205): the value of an immediate, the words of the loads, the frame of a register
write that may skip, and the statement.
-/

namespace Sys2Proof

/-! ### Immediates (R148) -/

@[simp] theorem toNat_zext (n : BitVec 12) : (zext n).toNat = n.toNat := by
  have hn : n.toNat < 2 ^ 24 := lt_of_lt_of_le n.isLt (by norm_num)
  rw [zext, BitVec.toNat_setWidth, Nat.mod_eq_of_lt hn]

/-- An immediate stays clear of the sign bit, so nothing of its negative is lost in 24 bits. -/
theorem toInt_zero_sub_zext (n : BitVec 12) : (0 - zext n).toInt = -(n.toNat : Int) := by
  have hn : n.toNat < 2 ^ 12 := n.isLt
  have hz : (zext n).toInt = n.toNat := by
    rw [BitVec.toInt_eq_toNat_of_lt (by rw [toNat_zext]; omega), toNat_zext]
  calc (0 - zext n).toInt = (0 - (n.toNat : Int)).bmod (2 ^ 24) := by rw [BitVec.toInt_sub, hz]; rfl
    _ = -(n.toNat : Int) := by rw [Int.zero_sub, Int.bmod_eq_of_le] <;> omega

/-! ### Words of class 110 (R157) -/

/-- The class nibbles 6 and 016 lead to class 110, whatever the other fields (R144, R157). -/
theorem decode_of_aluClass {w : Word} (h : Decode.fClass w = 0x6#4 ∨ Decode.fClass w = 0xE#4) : decode w = decodeAlu w := by
  rcases h with h | h <;> simp only [decode, decodeWith, h]

theorem decode_encode_rlo (r1 r2 : Reg) : decode (encode (.rlo r1 r2)) = .ok (.rlo r1 r2) := by
  rw [encode, decode_of_aluClass (by simp)]
  simp [decodeAlu, ifUnusedZero]

theorem decode_encode_rloz (r1 r2 : Reg) : decode (encode (.rloz r1 r2)) = .ok (.rloz r1 r2) := by
  rw [encode, decode_of_aluClass (by simp)]
  simp [decodeAlu, ifUnusedZero]

theorem decode_encode_ilo (r : Reg) (n : BitVec 12) : decode (encode (.ilo r n)) = .ok (.ilo r n) := by
  rw [encode, decode_of_aluClass (by simp)]
  simp [decodeAlu]

theorem decode_encode_ilom (r : Reg) (n : BitVec 12) : decode (encode (.ilom r n)) = .ok (.ilom r n) := by
  rw [encode, decode_of_aluClass (by simp)]
  simp [decodeAlu]

end Sys2Proof

namespace Sys2Proof.Machine

/-! ### The frame of a register write that may skip -/

/-- A register write leaves everything but that register. -/
theorem State.onlyRegs_setReg (s : State) (r : Reg) (v : Word) : s.onlyRegs (s.setReg r v) [r] :=
  ⟨fun _ hk => s.reg_setReg_of_ne v (List.ne_of_not_mem_cons hk), fun _ => rfl, rfl⟩

/-- A skip changes the PC alone, which `onlyRegs` leaves open. -/
theorem State.onlyRegs.skipIf {s t : State} {rs : List Reg} (h : s.onlyRegs t rs) (c : Bool) : s.onlyRegs (t.skipIf c) rs := by
  cases c
  case false => exact h
  case true =>
    obtain ⟨hreg, hmem, hrest⟩ := h
    refine ⟨hreg, hmem, ?_⟩
    rw [hrest]
    rfl

/-! ### What the loads answer (R202 to R205) -/

theorem exec_rlo (r1 r2 : Reg) (s : State) : exec (.rlo r1 r2) s = .next (s.setReg r1 (s.reg r2)) := rfl

theorem exec_rloz (r1 r2 : Reg) (s : State) :
    exec (.rloz r1 r2) s = .next ((s.setReg r1 (s.reg r2)).skipIf (decide (s.reg r2 = 0))) := rfl

theorem exec_ilo (r : Reg) (n : BitVec 12) (s : State) : exec (.ilo r n) s = .next (s.setReg r (zext n)) := rfl

theorem exec_ilom (r : Reg) (n : BitVec 12) (s : State) : exec (.ilom r n) s = .next (s.setReg r (0 - zext n)) := rfl

/-- Settles O16: each load is one register write, RLOZ with a skip behind it, so the frame is that of `setReg` and `skipIf`; the words
are those of the encoder. -/
theorem registerAndImmediateLoads : Obligations.RegisterAndImmediateLoads := by
  intro s r1 r2 n
  have frame : ∀ v, s.onlyRegs (s.setReg r1 v) [r1] := s.onlyRegs_setReg r1
  refine ⟨?rlo, ?rloz, ?ilo, ?ilom, decode_encode_rlo r1 r2, decode_encode_rloz r1 r2, decode_encode_ilo r1 n, decode_encode_ilom r1 n⟩
  case rlo => exact ⟨_, exec_rlo r1 r2 s, s.reg_setReg_self r1 _, rfl, frame _⟩
  case rloz => exact ⟨_, exec_rloz r1 r2 s, by rw [State.reg_skipIf, State.reg_setReg_self], by simp [State.skipIf_pc], (frame _).skipIf _⟩
  case ilo => exact ⟨_, exec_ilo r1 n s, by rw [State.reg_setReg_self, toNat_zext], rfl, frame _⟩
  case ilom => exact ⟨_, exec_ilom r1 n s, by rw [State.reg_setReg_self, toInt_zero_sub_zext], rfl, frame _⟩

end Sys2Proof.Machine
end

section
/-!
The logical instructions (R282 to R289): their words, the one shape of state they all answer, and the statement.
-/

namespace Sys2Proof

/-! ### The logical operations bit by bit -/

theorem bitAt_or (a b : Word) (k : Nat) : bitAt (a ||| b) k = (bitAt a k || bitAt b k) := BitVec.getMsbD_or

theorem bitAt_xor (a b : Word) (k : Nat) : bitAt (a ^^^ b) k = (bitAt a k != bitAt b k) := BitVec.getMsbD_xor

theorem bitAt_and (a b : Word) (k : Nat) : bitAt (a &&& b) k = (bitAt a k && bitAt b k) := BitVec.getMsbD_and

/-! ### Words of the logical instructions (R157) -/

theorem decode_encode_logical (r1 r2 : Reg) :
    ∀ i ∈ [Instr.or r1 r2, .orz r1 r2, .xor r1 r2, .xorz r1 r2, .xornz r1 r2, .and r1 r2, .andz r1 r2, .andnz r1 r2],
      decode (encode i) = .ok i := by
  intro i hi
  simp only [List.mem_cons, List.not_mem_nil, or_false] at hi
  rcases hi with rfl | rfl | rfl | rfl | rfl | rfl | rfl | rfl
  all_goals
    rw [encode, decode_of_aluClass (by simp)]
    simp [decodeAlu, ifUnusedZero]

end Sys2Proof

namespace Sys2Proof.Machine

/-! ### The state after a logical instruction -/

/-- What every logical instruction does with its result `v`: put it in `r` if `deposit`, skip on zero if `skips` (R282 to R289). -/
def State.logical (s : State) (r : Reg) (v : Word) (deposit skips : Bool) : State :=
  (if deposit then s.setReg r v else s).skipIf (skips && decide (v = 0))

section

variable (s : State) (r1 r2 : Reg)

theorem exec_or : exec (.or r1 r2) s = .next (s.logical r1 (s.reg r1 ||| s.reg r2) true false) := rfl

theorem exec_orz : exec (.orz r1 r2) s = .next (s.logical r1 (s.reg r1 ||| s.reg r2) true true) := rfl

theorem exec_xor : exec (.xor r1 r2) s = .next (s.logical r1 (s.reg r1 ^^^ s.reg r2) true false) := rfl

theorem exec_xorz : exec (.xorz r1 r2) s = .next (s.logical r1 (s.reg r1 ^^^ s.reg r2) true true) := rfl

theorem exec_xornz : exec (.xornz r1 r2) s = .next (s.logical r1 (s.reg r1 ^^^ s.reg r2) false true) := rfl

theorem exec_and : exec (.and r1 r2) s = .next (s.logical r1 (s.reg r1 &&& s.reg r2) true false) := rfl

theorem exec_andz : exec (.andz r1 r2) s = .next (s.logical r1 (s.reg r1 &&& s.reg r2) true true) := rfl

theorem exec_andnz : exec (.andnz r1 r2) s = .next (s.logical r1 (s.reg r1 &&& s.reg r2) false true) := rfl

end

section

variable (s : State) (r : Reg) (v : Word) (deposit skips : Bool)

theorem State.reg_logical_self : (s.logical r v deposit skips).reg r = if deposit then v else s.reg r := by
  cases deposit <;> simp [State.logical]

theorem State.logical_pc : (s.logical r v deposit skips).pc = if skips ∧ v = 0 then s.pc + 1 else s.pc := by
  cases deposit <;> simp [State.logical]

theorem State.onlyRegs_logical : s.onlyRegs (s.logical r v deposit skips) [r] := by
  have written : s.onlyRegs (if deposit then s.setReg r v else s) [r] := by
    cases deposit
    case false => exact ⟨fun _ _ => rfl, fun _ => rfl, rfl⟩
    case true => exact s.onlyRegs_setReg r v
  exact written.skipIf _

end

/-! ### The statement -/

/-- An instruction that answers `logical` of a word with the bits of a truth table `g` does what the statement says of it. -/
theorem exists_next_of_logical {i : Instr} {s : State} {r1 r2 : Reg} {v : Word} {g : Bool → Bool → Bool} {deposit skips : Bool}
    (hexec : exec i s = .next (s.logical r1 v deposit skips)) (hbits : ∀ k, bitAt v k = g (bitAt (s.reg r1) k) (bitAt (s.reg r2) k)) :
    ∃ t v, exec i s = .next t ∧ (∀ k < 24, bitAt v k = g (bitAt (s.reg r1) k) (bitAt (s.reg r2) k)) ∧
      t.reg r1 = (if deposit then v else s.reg r1) ∧ t.pc = (if skips ∧ v = 0 then s.pc + 1 else s.pc) ∧ s.onlyRegs t [r1] :=
  ⟨_, v, hexec, fun k _ => hbits k, s.reg_logical_self r1 v deposit skips, s.logical_pc r1 v deposit skips,
    s.onlyRegs_logical r1 v deposit skips⟩

/-- Settles O24: the eight instructions differ only in the truth table of the result and in whether it is deposited and tested, so the
words are those of the encoder and the rest is `State.logical`'s. -/
theorem logicalOperationsBitByBit : Obligations.LogicalOperationsBitByBit := by
  intro s r1 r2
  have word := decode_encode_logical r1 r2
  simp only [List.forall_mem_cons, -eq_self] at word ⊢
  obtain ⟨or, orz, xor, xorz, xornz, and, andz, andnz, -⟩ := word
  refine ⟨⟨or, ?or⟩, ⟨orz, ?orz⟩, ⟨xor, ?xor⟩, ⟨xorz, ?xorz⟩, ⟨xornz, ?xornz⟩, ⟨and, ?and⟩, ⟨andz, ?andz⟩, ⟨andnz, ?andnz⟩, List.forall_mem_nil _⟩
  case or => exact exists_next_of_logical (exec_or s r1 r2) (bitAt_or _ _)
  case orz => exact exists_next_of_logical (exec_orz s r1 r2) (bitAt_or _ _)
  case xor => exact exists_next_of_logical (exec_xor s r1 r2) (bitAt_xor _ _)
  case xorz => exact exists_next_of_logical (exec_xorz s r1 r2) (bitAt_xor _ _)
  case xornz => exact exists_next_of_logical (exec_xornz s r1 r2) (bitAt_xor _ _)
  case and => exact exists_next_of_logical (exec_and s r1 r2) (bitAt_and _ _)
  case andz => exact exists_next_of_logical (exec_andz s r1 r2) (bitAt_and _ _)
  case andnz => exact exists_next_of_logical (exec_andnz s r1 r2) (bitAt_and _ _)

end Sys2Proof.Machine
end

section
/-!
The compare instructions (R300 to R305): the word an immediate or its negative equals, the words of the compares, their skips, and the
statement.
-/

namespace Sys2Proof

/-! ### Equality with an immediate (R148) -/

theorem eq_zext_iff (v : Word) (n : BitVec 12) : v = zext n ↔ v.toNat = n.toNat := by
  rw [← BitVec.toNat_inj, toNat_zext]

theorem eq_zero_sub_zext_iff (v : Word) (n : BitVec 12) : v = 0 - zext n ↔ v.toInt = -(n.toNat : Int) := by
  rw [← BitVec.toInt_inj, toInt_zero_sub_zext]

/-! ### Words of class 101 with bit 0 set (R156) -/

/-- The class nibble 015 leads to class 101 with bit 0 set, whatever the other fields (R144, R156). -/
theorem decode_of_unaryClass {w : Word} (h : Decode.fClass w = 0xD#4) : decode w = decodeUnaryClass w := by
  simp only [decode, decodeWith, h]

/-- Class and register before the low 16 bits of format RR are the encoder's word. -/
theorem append_eq_fmtRR (c r r2 fn : BitVec 4) : c ++ r ++ (0#8 ++ r2 ++ fn : BitVec 16) = fmtRR c r r2 fn := by
  simp only [fmtRR, BitVec.append_assoc, BitVec.cast_eq]

/-- Class and register before the low 16 bits of format RN are the encoder's word. -/
theorem append_eq_fmtRN (c r : BitVec 4) (n : BitVec 12) (fn : BitVec 4) : c ++ r ++ (n ++ fn) = fmtRN c r n fn := by
  simp only [fmtRN, BitVec.append_assoc, BitVec.cast_eq]

theorem decode_encode_compare (r r2 : Reg) (n : BitVec 12) :
    ∀ i ∈ [Instr.ce r r2, .cne r r2, .cei r n, .cnei r n, .cemi r n, .cnemi r n], decode (encode i) = .ok i := by
  intro i hi
  simp only [List.mem_cons, List.not_mem_nil, or_false] at hi
  rcases hi with rfl | rfl | rfl | rfl | rfl | rfl
  all_goals
    rw [encode, decode_of_unaryClass (by simp)]
    simp [decodeUnaryClass, ifUnusedZero]

end Sys2Proof

namespace Sys2Proof.Machine

/-! ### The skip of a compare (R299) -/

/-- A compare changes the PC and nothing else. -/
theorem State.compare_eq (s : State) (c : Bool) : s.compare c = { s with pc := if c then s.pc + 1 else s.pc } := by
  cases c <;> rfl

section

variable (s : State) (r r2 : Reg) (n : BitVec 12)

theorem exec_ce : exec (.ce r r2) s = .next (s.compare (decide (s.reg r = s.reg r2))) := rfl

theorem exec_cne : exec (.cne r r2) s = .next (s.compare (decide (s.reg r ≠ s.reg r2))) := rfl

theorem exec_cei : exec (.cei r n) s = .next (s.compare (decide ((s.reg r).toNat = n.toNat))) := by
  rw [← decide_eq_decide.mpr (eq_zext_iff _ n)]
  rfl

theorem exec_cnei : exec (.cnei r n) s = .next (s.compare (decide ((s.reg r).toNat ≠ n.toNat))) := by
  rw [← decide_eq_decide.mpr (eq_zext_iff _ n).not]
  rfl

theorem exec_cemi : exec (.cemi r n) s = .next (s.compare (decide ((s.reg r).toInt = -(n.toNat : Int)))) := by
  rw [← decide_eq_decide.mpr (eq_zero_sub_zext_iff _ n)]
  rfl

theorem exec_cnemi : exec (.cnemi r n) s = .next (s.compare (decide ((s.reg r).toInt ≠ -(n.toNat : Int)))) := by
  rw [← decide_eq_decide.mpr (eq_zero_sub_zext_iff _ n).not]
  rfl

end

/-! ### The statement -/

/-- Settles O25: each word is the encoder's, and each compare answers `State.compare` of its condition, which changes the PC alone. -/
theorem comparesSkip : Obligations.ComparesSkip := by
  intro s r r2 n
  have word := decode_encode_compare r r2 n
  simp only [List.forall_mem_cons, append_eq_fmtRR, append_eq_fmtRN, ← State.compare_eq, -eq_self] at word ⊢
  obtain ⟨ce, cne, cei, cnei, cemi, cnemi, -⟩ := word
  exact ⟨⟨ce, exec_ce s r r2⟩, ⟨cne, exec_cne s r r2⟩, ⟨cei, exec_cei s r n⟩, ⟨cnei, exec_cnei s r n⟩, ⟨cemi, exec_cemi s r n⟩,
    ⟨cnemi, exec_cnemi s r n⟩, List.forall_mem_nil _⟩

end Sys2Proof.Machine
end

section
/-!
Decoding and encoding are inverse to each other (R143 to R161, R164, R165): which class a word belongs to, and the statement that decoding
an encoded instruction gives it back.
-/

namespace Sys2Proof

open Decode

/-! ### The class of a word (R144, R164) -/

section

variable {bit22 : Bool} {w : Word}

theorem decodeWith_of_jmpClass {i x : Bool} (h : fClass w = jmpClass i x) : decodeWith bit22 w = decodeJmp i x w := by
  cases i <;> cases x <;> simp only [decodeWith, h, jmpClass]

theorem decodeWith_of_pipeClass (h : fClass w = 0x4#4 ∨ fClass w = 0xC#4) : decodeWith bit22 w = decodePipe w := by
  rcases h with h | h <;> simp only [decodeWith, h]

theorem decodeWith_of_shiftClass (h : fClass w = 0x5#4) : decodeWith bit22 w = decodeShift w := by
  simp only [decodeWith, h]

theorem decodeWith_of_unaryClass (h : fClass w = 0xD#4) : decodeWith bit22 w = decodeUnaryClass w := by
  simp only [decodeWith, h]

theorem decodeWith_of_aluClass (h : fClass w = 0x6#4 ∨ fClass w = 0xE#4) : decodeWith bit22 w = decodeAlu w := by
  rcases h with h | h <;> simp only [decodeWith, h]

theorem decodeWith_of_stackClass (h : fClass w = 0x7#4) : decodeWith bit22 w = decodeStack bit22 w := by
  simp only [decodeWith, h]

end

/-! ### A bit joined to a three-bit code (R153, R154) -/

@[simp] theorem low_bit_append (b : BitVec 1) (v : BitVec 3) : (b ++ v).extractLsb' 0 3 = v := by
  revert b v; decide

@[simp] theorem high_bit_append (b : BitVec 1) (v : BitVec 3) : (b ++ v).getMsbD 0 = b.getLsbD 0 := by
  revert b v; decide

/-! ### Decoding what was encoded, class by class (R145) -/

@[simp] theorem toReg_zero : toReg 0#4 = 0 := rfl

/-- A manner is no code of J, PUSHJ or XEQ, so the decoder of class 01x reads a single draw (R152, R494). -/
theorem decodeJmp_of_manner {i x : Bool} {w : Word} {m : Manner} (h : fR w = ofManner m) : decodeJmp i x w = .ok (.sd i x m (fAddr w)) := by
  simp only [decodeJmp, h, toManner_ofManner]

section

variable {w : Word} {x : XSel} (hu : fUnused w = 0)

include hu

/-- Class 100 with an X field and bit 20 clear is a register transfer (R153). -/
theorem decodePipe_of_xFn (h : fFn w = xFn x) : decodePipe w = decodeRegTransfer (fI w) (fR w) (toReg (fR2 w)) x := by
  simp [decodePipe, ifUnusedZero, hu, h, xFn]

/-- Class 100 with an X field and bit 20 set is a register draw (R154). -/
theorem decodePipe_of_rdFn (h : fFn w = rdFn x) : decodePipe w = decodeRd w x := by
  simp [decodePipe, ifUnusedZero, hu, h, rdFn]

end

/-- Settles O1. -/
theorem decodeReadsEncodeBack : Obligations.DecodeReadsEncodeBack := by
  intro i bit22 wf
  cases i
  case nop | sleep | popj | popjof | ashl | ashld => cases wf
  case lo i r a => cases i <;> simp [encode, decodeWith, loClass]
  case st i r a => cases i <;> simp [encode, decodeWith, stClass]
  case iot r d => simp [encode, decodeWith]
  case j | pushj | xeq =>
    rw [encode, decodeWith_of_jmpClass (fClass_fmtAddr _ _ _)]
    simp [decodeJmp, toManner]
  case sd => 
    rw [encode, decodeWith_of_jmpClass (fClass_fmtAddr _ _ _), decodeJmp_of_manner (fR_fmtAddr _ _ _), fAddr_fmtAddr]
  case regj | regpj | regjs | push | pop | ipush | ipop | pushi | popi | dpush | dpop | pushd | popd =>
    rw [encode, decodeWith_of_stackClass (by simp)]
    simp [decodeStack, ifUnusedZero]
  case add | addnc | sub | subnb | rlo | rloz | xor | xorz | and | andz | or
      | orz | xornz | andnz | addi | addinc | subi | subinb | ilo | iloz | ilom | ilomz =>
    rw [encode, decodeWith_of_aluClass (by simp)]
    simp [decodeAlu, ifUnusedZero]
  case cshr | cshl | lshr | lshl | ashr | ashrd | lshrd | lshld | sob | szb | clb | setb | sobcl | szbcl | sobset | szbset =>
    rw [encode, decodeWith_of_shiftClass (by simp)]
    simp [decodeShift, ifUnusedZero]
  case locla | loclr | loclsa | loclsr | lomma | lommr | lommp | lomdr | stcl | stmm | nomm | popmm | stmdr | rtcla
      | rtclr | rtclsa | rtclsr | rtmm | rtmms | rtmdr | skcl | skmm | skmms | pushmm | skmdr =>
    rw [encode, decodeWith_of_pipeClass (by simp)]
    simp [decodePipe, decodeMem, decodeSink, ifUnusedZero, toXSel]
  case rlocla | rloclr | rlomma | rlommr | rlommp | rstcl | rstmm | rlomdr | rstmdr =>
    rw [encode, decodeWith_of_pipeClass (by simp), decodePipe_of_xFn (by simp) (fFn_fmtRR _ _ _ _)]
    simp [decodeRegTransfer]
  case rd => 
    rw [encode, decodeWith_of_pipeClass (by simp), decodePipe_of_rdFn (by simp) (fFn_fmtRR _ _ _ _)]
    simp [decodeRd]
  case td | tdr | tdi | tdir | tdix | tdixr | mmd | mmdr => 
    rw [encode, decodeWith_of_pipeClass (by simp)]
    simp [decodePipe, decodeTd, decodeMmd, ifUnusedZero, toXSel]
  all_goals 
    rw [encode, decodeWith_of_unaryClass (by simp)]
    simp [decodeUnaryClass, decodeUnary, decodeDec, decodeInc, decodeCom, decodeNeg, decodeTst, decodeZr, decodeAbv, decodeSlo, ifUnusedZero]

end Sys2Proof
end

section
/-!
A word that decodes is put together again from its fields (R143, R160, R161, R165): the encoder's formats field by field, what each class of
the decoder answers, and the DA field of RLOMDR.
-/

namespace Sys2Proof

open Decode

/-! ### A word is put together from its fields (R143, R161) -/

theorem fI_eq (w : Word) : fI w = (fClass w).getMsbD 0 := by
  simp [fI, fClass, BitVec.getMsbD]

/-- Equality of words, bit by bit of their fields. -/
theorem fmtAddr_eq_iff {c r : BitVec 4} {a : BitVec 16} {w : Word} :
    fmtAddr c r a = w ↔ fClass w = c ∧ fR w = r ∧ fAddr w = a := by
  refine ⟨fun h => by simp [← h], fun ⟨hc, hr, ha⟩ => ?_⟩
  rw [← hc, ← hr, ← ha]
  apply BitVec.eq_of_getLsbD_eq
  intro i hi
  simp only [fmtAddr, fClass, fR, fAddr, BitVec.getLsbD_append, BitVec.getLsbD_extractLsb']
  interval_cases i <;> rfl

theorem fmtRR_eq_iff {c r r2 fn : BitVec 4} {w : Word} :
    fmtRR c r r2 fn = w ↔ fClass w = c ∧ fR w = r ∧ fUnused w = 0 ∧ fR2 w = r2 ∧ fFn w = fn := by
  refine ⟨fun h => by simp [← h], fun ⟨hc, hr, hu, hr2, hf⟩ => ?_⟩
  rw [← hc, ← hr, ← hr2, ← hf, fmtRR, show (0#8) = fUnused w from hu.symm]
  apply BitVec.eq_of_getLsbD_eq
  intro i hi
  simp only [fClass, fR, fUnused, fR2, fFn, BitVec.getLsbD_append, BitVec.getLsbD_extractLsb']
  interval_cases i <;> rfl

theorem fmtRN_eq_iff {c r : BitVec 4} {n : BitVec 12} {fn : BitVec 4} {w : Word} :
    fmtRN c r n fn = w ↔ fClass w = c ∧ fR w = r ∧ fN w = n ∧ fFn w = fn := by
  refine ⟨fun h => by simp [← h], fun ⟨hc, hr, hn, hf⟩ => ?_⟩
  rw [← hc, ← hr, ← hn, ← hf]
  apply BitVec.eq_of_getLsbD_eq
  intro i hi
  simp only [fmtRN, fClass, fR, fN, fFn, BitVec.getLsbD_append, BitVec.getLsbD_extractLsb']
  interval_cases i <;> rfl

theorem fmtRB_eq_iff {c r : BitVec 4} {b : BitVec 5} {fn : BitVec 4} {w : Word} :
    fmtRB c r b fn = w ↔ fClass w = c ∧ fR w = r ∧ fUnusedB w = 0 ∧ fB w = b ∧ fFn w = fn := by
  refine ⟨fun h => by simp [← h], fun ⟨hc, hr, hu, hb, hf⟩ => ?_⟩
  rw [← hc, ← hr, ← hb, ← hf, fmtRB, show (0#7) = fUnusedB w from hu.symm]
  apply BitVec.eq_of_getLsbD_eq
  intro i hi
  simp only [fClass, fR, fUnusedB, fB, fFn, BitVec.getLsbD_append, BitVec.getLsbD_extractLsb']
  interval_cases i <;> rfl

/-! ### The codes of operands -/

@[simp] theorem ofReg_toReg (v : BitVec 4) : ofReg (toReg v) = v := by revert v; decide

@[simp] theorem ofCount_toCount (v : BitVec 5) : ofCount (toCount v) = v := by revert v; decide

@[simp] theorem ofFsm1_toFsm1 (v : BitVec 3) : ofFsm1 (toFsm1 v) = v := by revert v; decide

@[simp] theorem ofFsm2_toFsm2 (v : BitVec 3) : ofFsm2 (toFsm2 v) = v := by revert v; decide

theorem ofManner_of_toManner {v : BitVec 4} {m : Manner} (h : toManner v = some m) : ofManner m = v := by
  revert v m; decide +revert

theorem ofXSel_of_toXSel {v : BitVec 3} {x : XSel} (h : toXSel v = some x) : ofXSel x = v := by
  revert v x; decide +revert

/-- A four-bit field is its first bit and the code in the other three. -/
theorem bit_append_low {v : BitVec 4} {b : Bool} (h : v.getMsbD 0 = b) : BitVec.ofBool b ++ v.extractLsb' 0 3 = v := by
  subst h; revert v; decide

/-! ### What decodes is what was encoded, class by class -/

theorem ifUnusedZero_eq_ok {k : Nat} {u : BitVec k} {i : Except DecodeError Instr} {j : Instr} :
    ifUnusedZero u i = .ok j ↔ u = 0 ∧ i = .ok j := by
  unfold ifUnusedZero
  split <;> simp_all


/-- `i` is written as the decoder writes it, and `w` is its word. -/
def Rebuilds (w : Word) (i : Instr) : Prop := i.WellFormed ∧ encode i = w

/-- The sixteenth code, which the decoder's last arm stands for. -/
theorem eq_fifteen {v : BitVec 4} (h0 : v ≠ 0) (h1 : v ≠ 1) (h2 : v ≠ 2) (h3 : v ≠ 3) (h4 : v ≠ 4) (h5 : v ≠ 5) (h6 : v ≠ 6)
    (h7 : v ≠ 7) (h8 : v ≠ 8) (h9 : v ≠ 9) (h10 : v ≠ 10) (h11 : v ≠ 11) (h12 : v ≠ 12) (h13 : v ≠ 13) (h14 : v ≠ 14) : v = 15 := by
  bv_omega

theorem eq_of_three_bits (c : BitVec 3) : c = 0 ∨ c = 1 ∨ c = 2 ∨ c = 3 ∨ c = 4 ∨ c = 5 ∨ c = 6 ∨ c = 7 := by
  revert c; decide

section

variable (c : BitVec 3) (r : Reg)

/-! The words of the eight condition forms of a unary operation (R156). -/

theorem rebuilds_decodeDec : Rebuilds (fmtRR 0xD#4 (ofReg r) (0#1 ++ c) 0x0#4) (decodeDec c r) := by
  rcases eq_of_three_bits c with rfl | rfl | rfl | rfl | rfl | rfl | rfl | rfl <;> exact ⟨rfl, rfl⟩

theorem rebuilds_decodeInc : Rebuilds (fmtRR 0xD#4 (ofReg r) (0#1 ++ c) 0x1#4) (decodeInc c r) := by
  rcases eq_of_three_bits c with rfl | rfl | rfl | rfl | rfl | rfl | rfl | rfl <;> exact ⟨rfl, rfl⟩

theorem rebuilds_decodeCom : Rebuilds (fmtRR 0xD#4 (ofReg r) (0#1 ++ c) 0x2#4) (decodeCom c r) := by
  rcases eq_of_three_bits c with rfl | rfl | rfl | rfl | rfl | rfl | rfl | rfl <;> exact ⟨rfl, rfl⟩

theorem rebuilds_decodeNeg : Rebuilds (fmtRR 0xD#4 (ofReg r) (0#1 ++ c) 0x3#4) (decodeNeg c r) := by
  rcases eq_of_three_bits c with rfl | rfl | rfl | rfl | rfl | rfl | rfl | rfl <;> exact ⟨rfl, rfl⟩

theorem rebuilds_decodeTst : Rebuilds (fmtRR 0xD#4 (ofReg r) (0#1 ++ c) 0x4#4) (decodeTst c r) := by
  rcases eq_of_three_bits c with rfl | rfl | rfl | rfl | rfl | rfl | rfl | rfl <;> exact ⟨rfl, rfl⟩

theorem rebuilds_decodeZr : Rebuilds (fmtRR 0xD#4 (ofReg r) (0#1 ++ c) 0x5#4) (decodeZr c r) := by
  rcases eq_of_three_bits c with rfl | rfl | rfl | rfl | rfl | rfl | rfl | rfl <;> exact ⟨rfl, rfl⟩

theorem rebuilds_decodeAbv : Rebuilds (fmtRR 0xD#4 (ofReg r) (0#1 ++ c) 0x6#4) (decodeAbv c r) := by
  rcases eq_of_three_bits c with rfl | rfl | rfl | rfl | rfl | rfl | rfl | rfl <;> exact ⟨rfl, rfl⟩

theorem rebuilds_decodeSlo : Rebuilds (fmtRR 0xD#4 (ofReg r) (1#1 ++ c) 0x4#4) (decodeSlo c r) := by
  rcases eq_of_three_bits c with rfl | rfl | rfl | rfl | rfl | rfl | rfl | rfl <;> exact ⟨rfl, rfl⟩

end

/-- `w` is a word of RLOMDR, whatever its DA field (R461). -/
def RlomdrWord (x : XSel) (w : Word) : Prop := fClass w = 0x4#4 ∧ fR w = 0x7#4 ∧ fUnused w = 0 ∧ fFn w = xFn x

section

variable {w : Word} {i : Instr}

theorem rebuilds_of_decodeAlu (hc : fClass w = 0x6#4 ∨ fClass w = 0xE#4) (h : decodeAlu w = .ok i) : Rebuilds w i := by
  have hI := fI_eq w
  unfold decodeAlu at h
  split at h <;> simp only [ifUnusedZero_eq_ok, Except.ok.injEq, reduceCtorEq] at h
  case h_15 | h_16 | h_17 | h_18 | h_19 | h_20 | h_21 | h_22 =>
    subst h
    exact ⟨rfl, by rcases hc with hc | hc <;> simp_all [encode, fmtRN_eq_iff]⟩
  all_goals
    obtain ⟨hu, rfl⟩ := h
    exact ⟨rfl, by rcases hc with hc | hc <;> simp_all [encode, fmtRR_eq_iff]⟩

theorem rebuilds_of_decodeStack (hc : fClass w = 0x7#4) (h : decodeStack false w = .ok i) : Rebuilds w i := by
  unfold decodeStack at h
  split at h <;> simp only [ifUnusedZero_eq_ok, Except.ok.injEq, reduceCtorEq, Bool.false_eq_true, if_false] at h
  case h_13 | h_14 | h_15 => subst h; exact ⟨rfl, by simp_all [encode, fmtRN_eq_iff]⟩
  all_goals
    obtain ⟨hu, rfl⟩ := h
    exact ⟨rfl, by simp_all [encode, fmtRR_eq_iff]⟩

theorem rebuilds_of_decodeShift (hc : fClass w = 0x5#4) (h : decodeShift w = .ok i) : Rebuilds w i := by
  rw [decodeShift, ifUnusedZero_eq_ok] at h
  obtain ⟨hu, h⟩ := h
  split at h <;> cases h
  case h_16 => 
    have : fFn w = 15 := by apply eq_fifteen <;> assumption
    exact ⟨rfl, by simp_all [encode, fmtRB_eq_iff]⟩
  all_goals exact ⟨rfl, by simp_all [encode, fmtRB_eq_iff]⟩

theorem rebuilds_of_decodeUnary (hc : fClass w = 0xD#4) (h : decodeUnary w = .ok i) : Rebuilds w i := by
  rw [decodeUnary, ifUnusedZero_eq_ok] at h
  obtain ⟨hu, h⟩ := h
  have ofWord {b : Bool} {fn : BitVec 4} {j : Instr} (hb : (fR2 w).getMsbD 0 = b) (hf : fFn w = fn)
      (hj : Rebuilds (fmtRR 0xD#4 (ofReg (toReg (fR w))) (BitVec.ofBool b ++ (fR2 w).extractLsb' 0 3) fn) j) : Rebuilds w j := by
    rw [bit_append_low hb, ofReg_toReg] at hj
    rwa [fmtRR_eq_iff.mpr ⟨hc, rfl, hu, rfl, hf⟩] at hj
  split at h <;> cases h
  case h_1 hb hf => exact ofWord hb hf (rebuilds_decodeDec _ _)
  case h_2 hb hf => exact ofWord hb hf (rebuilds_decodeInc _ _)
  case h_3 hb hf => exact ofWord hb hf (rebuilds_decodeCom _ _)
  case h_4 hb hf => exact ofWord hb hf (rebuilds_decodeNeg _ _)
  case h_5 hb hf => exact ofWord hb hf (rebuilds_decodeTst _ _)
  case h_6 hb hf => exact ofWord hb hf (rebuilds_decodeZr _ _)
  case h_7 hb hf => exact ofWord hb hf (rebuilds_decodeAbv _ _)
  case h_8 hb hf => exact ofWord hb hf (rebuilds_decodeSlo _ _)

theorem rebuilds_of_decodeUnaryClass (hc : fClass w = 0xD#4) (h : decodeUnaryClass w = .ok i) : Rebuilds w i := by
  unfold decodeUnaryClass at h
  split at h
  case h_1 =>
    obtain ⟨hu, h⟩ := ifUnusedZero_eq_ok.mp h
    split at h <;> cases h
    exact ⟨rfl, by simp_all [encode, fmtRR_eq_iff]⟩
  case h_2 | h_3 | h_4 | h_5 =>
    obtain ⟨hu, h⟩ := ifUnusedZero_eq_ok.mp h
    cases h
    exact ⟨rfl, by simp_all [encode, fmtRR_eq_iff, fmtRB_eq_iff]⟩
  case h_6 | h_7 | h_8 | h_9 =>
    cases h
    exact ⟨rfl, by simp_all [encode, fmtRN_eq_iff]⟩
  case h_10 => exact rebuilds_of_decodeUnary hc h


/-! Class 100 (R153, R154): its four parts, then the whole. -/

theorem toReg_eq_zero_iff {v : BitVec 4} : toReg v = 0 ↔ v = 0 := by revert v; decide

section

variable (hc : fClass w = 0x4#4 ∨ fClass w = 0xC#4) (hu : fUnused w = 0)

include hc hu

theorem rebuilds_of_decodeMem (hf : fFn w = 0x6#4) (h : decodeMem (fI w) (fR w) (toReg (fR2 w)) = .ok i) : Rebuilds w i := by
  have hI := fI_eq w
  unfold decodeMem at h
  split at h <;> (try split at h) <;> cases h
  all_goals exact ⟨rfl, by rcases hc with hc | hc <;> simp_all [encode, fmtRR_eq_iff, toReg_eq_zero_iff]⟩

theorem rebuilds_of_decodeSink (hf : fFn w = 0x7#4) (h : decodeSink (fI w) (fR w) (toReg (fR2 w)) = .ok i) : Rebuilds w i := by
  have hI := fI_eq w
  unfold decodeSink at h
  split at h <;> (try split at h) <;> cases h
  all_goals exact ⟨rfl, by rcases hc with hc | hc <;> simp_all [encode, fmtRR_eq_iff, toReg_eq_zero_iff]⟩

theorem rebuilds_of_decodeRegTransfer {x : XSel} (hf : fFn w = xFn x)
    (h : decodeRegTransfer (fI w) (fR w) (toReg (fR2 w)) x = .ok i) : Rebuilds w i ∨ i = .rlomdr x ∧ RlomdrWord x w := by
  have hI := fI_eq w
  unfold decodeRegTransfer at h
  split at h <;> (try split at h) <;> cases h
  case h_6 hi hr => exact .inr ⟨rfl, by rcases hc with hc | hc <;> simp_all, hr, hu, hf⟩
  all_goals exact .inl ⟨rfl, by rcases hc with hc | hc <;> simp_all [encode, fmtRR_eq_iff, toReg_eq_zero_iff]⟩

theorem rebuilds_of_decodeTd (hf : fFn w = 0xE#4) (h : decodeTd w = .ok i) : Rebuilds w i := by
  have hI := fI_eq w
  unfold decodeTd at h
  dsimp only at h
  split at h <;> cases h
  all_goals
    next hi hb hb2 => 
    have e1 := bit_append_low hb
    have e2 := bit_append_low hb2
    exact ⟨rfl, by rcases hc with hc | hc <;> simp_all [encode, fmtRR_eq_iff]⟩

theorem rebuilds_of_decodeMmd (hf : fFn w = 0xF#4) (h : decodeMmd w = .ok i) : Rebuilds w i := by
  have hI := fI_eq w
  unfold decodeMmd at h
  dsimp only at h
  split at h
  · cases h
  next hb =>
    simp only [Bool.or_eq_true, not_or, Bool.not_eq_true] at hb
    have e1 := bit_append_low hb.2
    split at h <;> cases h
    all_goals
      exact ⟨rfl, by rcases hc with hc | hc <;> simp_all [encode, fmtRR_eq_iff]⟩

theorem rebuilds_of_decodeRd {x : XSel} (hf : fFn w = rdFn x) (h : decodeRd w x = .ok i) : Rebuilds w i := by
  have hI := fI_eq w
  unfold decodeRd at h
  split at h
  · cases h
  next hb =>
    simp only [Bool.or_eq_true, not_or, Bool.not_eq_true] at hb
    obtain ⟨⟨hi, hb⟩, hb2⟩ := hb
    have e1 := bit_append_low hb
    have e2 := bit_append_low hb2
    cases h
    exact ⟨rfl, by rcases hc with hc | hc <;> simp_all [encode, fmtRR_eq_iff]⟩

end

/-- The two function codes of class 100 without an X field, with bit 20 clear and with bit 20 set. -/
theorem eq_of_toXSel_none {v : BitVec 4} (h : toXSel (v.extractLsb' 0 3) = none) :
    v = if v.getMsbD 0 then (if v = 0xE#4 then 0xE#4 else 0xF#4) else if v = 0x6#4 then 0x6#4 else 0x7#4 := by
  revert v; decide

theorem rebuilds_of_decodePipe (hc : fClass w = 0x4#4 ∨ fClass w = 0xC#4) (h : decodePipe w = .ok i) :
    Rebuilds w i ∨ ∃ x, i = .rlomdr x ∧ RlomdrWord x w := by
  obtain ⟨hu, h⟩ := ifUnusedZero_eq_ok.mp h
  split at h
  case h_1 x hx' hb =>
    have hf := bit_append_low hb
    rw [← ofXSel_of_toXSel hx'] at hf
    exact rebuilds_of_decodeRegTransfer hc hu hf.symm h |>.imp_right fun hx => ⟨x, hx⟩
  case h_2 x hx' hb =>
    have hf := bit_append_low hb
    rw [← ofXSel_of_toXSel hx'] at hf
    exact .inl <| rebuilds_of_decodeRd hc hu hf.symm h
  case h_3 hx' hb => 
    split at h
    next hf => exact .inl <| rebuilds_of_decodeMem hc hu hf h
    next hf => exact .inl <| rebuilds_of_decodeSink hc hu (by simpa [hb, hf] using eq_of_toXSel_none hx') h
  case h_4 hx' hb => 
    split at h
    next hf => exact .inl <| rebuilds_of_decodeTd hc hu hf h
    next hf => exact .inl <| rebuilds_of_decodeMmd hc hu (by simpa [hb, hf] using eq_of_toXSel_none hx') h

/-- The code of class 01x that is no manner and belongs neither to J nor to PUSHJ is that of XEQ (R152). -/
theorem eq_xeqCode_of_toManner_none {v : BitVec 4} (h : toManner v = none) (h3 : v ≠ 0x3#4) (h7 : v ≠ 0x7#4) : v = 0xB#4 := by
  revert v; decide

theorem rebuilds_of_decodeJmp {j x : Bool} (hc : fClass w = jmpClass j x) (h : decodeJmp j x w = .ok i) : Rebuilds w i := by
  unfold decodeJmp at h
  split at h
  next m hm => 
    cases h
    exact ⟨rfl, by simp [encode, fmtAddr_eq_iff, hc, ofManner_of_toManner hm]⟩
  next hm => 
    split at h <;> cases h
    case h_3 h3 h7 => exact ⟨rfl, by simp [encode, fmtAddr_eq_iff, hc, eq_xeqCode_of_toManner_none hm h3 h7]⟩
    all_goals exact ⟨rfl, by simp_all [encode, fmtAddr_eq_iff]⟩

/-- A word that decodes is the word of a well-formed instruction, or one of RLOMDR with any DA field. -/
theorem rebuilds_of_decode (h : decode w = .ok i) : Rebuilds w i ∨ ∃ x, i = .rlomdr x ∧ RlomdrWord x w := by
  unfold decode decodeWith at h
  split at h
  case h_1 hc | h_2 hc | h_3 hc | h_4 hc =>
    cases h
    exact .inl ⟨rfl, by simp [encode, fmtAddr_eq_iff, hc, loClass, stClass]⟩
  case h_5 hc | h_6 hc | h_7 hc | h_8 hc => exact .inl (rebuilds_of_decodeJmp (by rw [hc]; rfl) h)
  case h_9 hc => exact rebuilds_of_decodePipe (.inl hc) h
  case h_10 hc => exact rebuilds_of_decodePipe (.inr hc) h
  case h_11 hc => exact .inl (rebuilds_of_decodeShift hc h)
  case h_12 hc => exact .inl (rebuilds_of_decodeUnaryClass hc h)
  case h_13 hc => exact .inl (rebuilds_of_decodeAlu (.inl hc) h)
  case h_14 hc => exact .inl (rebuilds_of_decodeAlu (.inr hc) h)
  case h_15 hc => exact .inl (rebuilds_of_decodeStack hc h)
  case h_16 =>
    have hc : fClass w = 0xF#4 := by apply eq_fifteen <;> assumption
    cases h
    exact .inl ⟨rfl, by simp [encode, fmtAddr_eq_iff, hc]⟩

/-! ### The DA field of RLOMDR (R461) -/

theorem decode_of_rlomdrWord {x : XSel} (h : RlomdrWord x w) : decode w = .ok (.rlomdr x) := by
  obtain ⟨hc, hr, hu, hf⟩ := h
  rw [decode, decodeWith_of_pipeClass (.inl hc), decodePipe_of_xFn hu hf, fI_eq, hc, hr]
  rfl

end

theorem getLsbD_eq_bitAt (w : Word) {k : Nat} (h : k < 24) : w.getLsbD k = bitAt w (23 - k) := by
  rw [bitAt_eq_testBit _ (by omega), BitVec.getLsbD]
  congr 1
  omega

/-- A field outside the DA field, after the DA field was replaced. -/
theorem extractLsb'_setFieldAt_da (w : Word) (d : Nat) {i n : Nat} (hn : i + n ≤ 24) (h : i + n ≤ 4 ∨ 8 ≤ i) :
    (setFieldAt w 16 19 d).extractLsb' i n = w.extractLsb' i n := by
  apply BitVec.eq_of_getLsbD_eq
  intro k hk
  rw [BitVec.getLsbD_extractLsb', BitVec.getLsbD_extractLsb', getLsbD_eq_bitAt _ (by omega), getLsbD_eq_bitAt _ (by omega),
    bitAt_setFieldAt_of_disjoint _ _ (by omega) (by omega) (by omega)]

/-- The DA field just replaced. -/
theorem fR2_setFieldAt_da (w : Word) (d : Nat) : fR2 (setFieldAt w 16 19 d) = BitVec.ofNat 4 d := by
  apply BitVec.eq_of_getLsbD_eq
  intro k hk
  rw [fR2, BitVec.getLsbD_extractLsb', getLsbD_eq_bitAt _ (by omega), bitAt_setFieldAt _ _ (by omega) (by omega),
    if_pos (by omega), BitVec.getLsbD_ofNat, show 19 - (23 - (4 + k)) = k by omega]

namespace RlomdrWord

variable {x : XSel} {w : Word} (h : RlomdrWord x w)

include h

theorem setFieldAt_da (d : Nat) : RlomdrWord x (setFieldAt w 16 19 d) := by
  obtain ⟨hc, hr, hu, hf⟩ := h
  refine ⟨?_, ?_, ?_, ?_⟩
  · rwa [fClass, extractLsb'_setFieldAt_da _ _ (by omega) (by omega)]
  · rwa [fR, extractLsb'_setFieldAt_da _ _ (by omega) (by omega)]
  · rwa [fUnused, extractLsb'_setFieldAt_da _ _ (by omega) (by omega)]
  · rwa [fFn, extractLsb'_setFieldAt_da _ _ (by omega) (by omega)]

theorem encode_rlomdr : encode (.rlomdr x) = setFieldAt w 16 19 0 := by
  obtain ⟨hc, hr, hu, hf⟩ := h.setFieldAt_da 0
  exact fmtRR_eq_iff.mpr ⟨hc, hr, hu, fR2_setFieldAt_da w 0, hf⟩

end RlomdrWord

/-- Settles O2: class by class a word that decodes is put together again from its fields; only RLOMDR forgets one, its DA field. -/
theorem encodeRebuildsDecodedWord : Obligations.EncodeRebuildsDecodedWord := by
  intro w i h
  have ofRlomdr (x : XSel) (hx : RlomdrWord x w) :
      encode (.rlomdr x) = setFieldAt w 16 19 0 ∧ ∀ d < 16, decode (setFieldAt w 16 19 d) = .ok (.rlomdr x) :=
    ⟨hx.encode_rlomdr, fun d _ => decode_of_rlomdrWord (hx.setFieldAt_da d)⟩
  rcases rebuilds_of_decode h with ⟨wf, hw⟩ | ⟨x, rfl, hx⟩
  · refine ⟨wf, fun _ => hw, ?_⟩
    rintro x rfl
    exact ofRlomdr x (by simp [← hw, encode, RlomdrWord])
  · refine ⟨rfl, fun h => absurd rfl (h x), ?_⟩
    rintro _ ⟨rfl⟩
    exact ofRlomdr x hx

end Sys2Proof
end

section
/-!
The undefined encodings (R160): the manual's fields as the decoder's, what each class of the decoder refuses, and the statement.
-/

namespace Sys2Proof

open Decode

/-! ### The fields of the manual (R9, R143) -/

theorem fieldAt_eq_toNat (w : Word) {i j : Nat} : fieldAt w i j = (w.extractLsb' (23 - j) (j + 1 - i)).toNat := by
  rw [fieldAt, BitVec.extractLsb'_toNat, Nat.shiftRight_eq_div_pow]

section

variable (w : Word)

theorem fieldAt_class : fieldAt w 0 3 = (fClass w).toNat := fieldAt_eq_toNat w
theorem fieldAt_r : fieldAt w 4 7 = (fR w).toNat := fieldAt_eq_toNat w
theorem fieldAt_unused : fieldAt w 8 15 = (fUnused w).toNat := fieldAt_eq_toNat w
theorem fieldAt_unusedB : fieldAt w 8 14 = (fUnusedB w).toNat := fieldAt_eq_toNat w
theorem fieldAt_r2 : fieldAt w 16 19 = (fR2 w).toNat := fieldAt_eq_toNat w
theorem fieldAt_fn : fieldAt w 20 23 = (fFn w).toNat := fieldAt_eq_toNat w
theorem bitAt_i : bitAt w 0 = fI w := rfl

theorem fieldAt_r2_low : fieldAt w 17 19 = ((fR2 w).extractLsb' 0 3).toNat := by
  rw [fieldAt_eq_toNat]
  congr 1
  apply BitVec.eq_of_getLsbD_eq
  intro k hk
  simp [fR2, hk, show k < 4 by omega]

theorem bitAt_r : bitAt w 4 = (fR w).getMsbD 0 := by
  simp [bitAt, fR, BitVec.getMsbD]

theorem bitAt_r2 : bitAt w 16 = (fR2 w).getMsbD 0 := by
  simp [bitAt, fR2, BitVec.getMsbD]

theorem bitAt_fn : bitAt w 20 = (fFn w).getMsbD 0 := by
  simp [bitAt, fFn, BitVec.getMsbD]

/-- Bits 1 to 3 leave bit 0 of the class open. -/
theorem fClass_of_fieldAt {n : Nat} (h : fieldAt w 1 3 = n) : fClass w = BitVec.ofNat 4 n ∨ fClass w = BitVec.ofNat 4 (n + 8) := by
  have hc := fieldAt_class w
  simp only [fieldAt] at h hc
  simp only [← BitVec.toNat_inj, BitVec.toNat_ofNat]
  omega

end

/-! ### What each class refuses (R160) -/

/-- A word that is no instruction. -/
def Refused (r : Except DecodeError Instr) : Prop := ∃ e, r = .error e

theorem refused_error (e : DecodeError) : Refused (.error e) := ⟨e, rfl⟩

theorem refused_ifUnusedZero {k : Nat} {u : BitVec k} {r : Except DecodeError Instr} (h : u ≠ 0 ∨ Refused r) : Refused (ifUnusedZero u r) := by
  unfold ifUnusedZero
  split
  next hu => exact h.resolve_left (not_not.mpr hu)
  next => exact refused_error _

section

variable {w : Word}

/-- R160 (a), (g). -/
theorem decodeAlu_refused (h : 12 ≤ (fFn w).toNat ∨ (fI w = false ∧ ((fFn w).toNat = 6 ∨ (fFn w).toNat = 7)) ∨
    ((fFn w).toNat < 8 ∧ fUnused w ≠ 0)) : Refused (decodeAlu w) := by
  unfold decodeAlu
  split
  case h_23 => exact refused_error _
  all_goals simp_all [ifUnusedZero, Refused]

/-- R160 (b), (g). -/
theorem decodeStack_refused (h : (fFn w).toNat = 15 ∨ (fFn w).toNat = 2 ∨ (fFn w).toNat = 3 ∨ ((fFn w).toNat < 12 ∧ fUnused w ≠ 0)) :
    Refused (decodeStack false w) := by
  unfold decodeStack
  split
  case h_16 => exact refused_error _
  all_goals simp_all [ifUnusedZero, Refused]

theorem decodeUnary_refused (h : ((fFn w).toNat < 7 ∧ (fR2 w).getMsbD 0 = true ∧ (fFn w).toNat ≠ 4) ∨ fUnused w ≠ 0) :
    Refused (decodeUnary w) := by
  refine refused_ifUnusedZero ?_
  rcases h with h | h
  · right
    split <;> simp_all [Refused]
  · exact .inl h

/-- R160 (c), (g). -/
theorem decodeUnaryClass_refused (h : ((fFn w).toNat = 7 ∧ fR2 w ≠ 0) ∨
    ((fFn w).toNat < 7 ∧ (fR2 w).getMsbD 0 = true ∧ (fFn w).toNat ≠ 4) ∨
    (((fFn w).toNat < 8 ∨ (fFn w).toNat = 10 ∨ (fFn w).toNat = 11) ∧ fUnused w ≠ 0) ∨
    (((fFn w).toNat = 8 ∨ (fFn w).toNat = 9) ∧ fUnusedB w ≠ 0)) : Refused (decodeUnaryClass w) := by
  unfold decodeUnaryClass
  split
  case h_1 hf =>
    rw [hf] at h
    refine refused_ifUnusedZero ?_
    by_cases hr : fR2 w = 0
    · simp_all
    · exact .inr (if_neg hr ▸ refused_error _)
  case h_10 h7 h8 h9 _ _ _ _ _ _ =>
    apply decodeUnary_refused
    rcases h with ⟨hf, -⟩ | h | ⟨-, hu⟩ | ⟨hf | hf, -⟩
    · exact absurd (BitVec.eq_of_toNat_eq hf) h7
    · exact .inl h
    · exact .inr hu
    · exact absurd (BitVec.eq_of_toNat_eq hf) h8
    · exact absurd (BitVec.eq_of_toNat_eq hf) h9
  all_goals simp_all [ifUnusedZero, Refused]

/-- R160 (g). -/
theorem decodeShift_refused (h : fUnusedB w ≠ 0) : Refused (decodeShift w) := refused_ifUnusedZero (.inl h)

section

variable {u : Bool} {dm : BitVec 4} {da : DevAddr}

/-- R160 (e), (g): memory loads and stores. -/
theorem decodeMem_refused (h : 8 ≤ dm.toNat ∨ (u = true ∧ (dm.toNat = 1 ∨ dm.toNat = 2 ∨ dm.toNat = 3)) ∨ (dm.toNat = 7 ∧ da ≠ 0) ∨
    (u = true ∧ dm.toNat = 5 ∧ da ≠ 0)) : Refused (decodeMem u dm da) := by
  unfold decodeMem
  split <;> simp_all [Refused]

/-- R160 (e), (g): retrieves and sinks. -/
theorem decodeSink_refused (h : 8 ≤ dm.toNat ∨ (u = true ∧ (dm.toNat = 1 ∨ dm.toNat = 2 ∨ dm.toNat = 3)) ∨
    (u = false ∧ dm.toNat = 6) ∨ (dm.toNat = 7 ∧ da ≠ 0)) : Refused (decodeSink u dm da) := by
  unfold decodeSink
  split <;> simp_all [Refused]

/-- R160 (e), (g): register transfers. -/
theorem decodeRegTransfer_refused {x : XSel} (h : 8 ≤ dm.toNat ∨ (u = true ∧ (dm.toNat = 1 ∨ dm.toNat = 2 ∨ dm.toNat = 3)) ∨
    dm.toNat = 2 ∨ dm.toNat = 3 ∨ (u = true ∧ (dm.toNat = 5 ∨ dm.toNat = 6)) ∨ (u = true ∧ dm.toNat = 7 ∧ da ≠ 0)) :
    Refused (decodeRegTransfer u dm da x) := by
  unfold decodeRegTransfer
  split <;> simp_all [Refused]

end

/-- R160 (f): table draws. -/
theorem decodeTd_refused (h : (fR w).getMsbD 0 = true ∧ fI w = false) : Refused (decodeTd w) := by
  simp only [decodeTd, h]
  exact refused_error _

/-- R160 (f): Matrix Multiplier draws. -/
theorem decodeMmd_refused (h : fI w = true ∨ (fR w).getMsbD 0 = true ∨ (fR2 w).extractLsb' 0 3 ≠ 2) : Refused (decodeMmd w) := by
  unfold decodeMmd
  dsimp only
  split
  · exact refused_error _
  next hb =>
    split <;> simp_all [Refused]

/-- R160 (f): register draws. -/
theorem decodeRd_refused {x : XSel} (h : fI w = true ∨ (fR w).getMsbD 0 = true ∨ (fR2 w).getMsbD 0 = true) : Refused (decodeRd w x) := by
  rw [decodeRd, if_pos (by simp [Bool.or_eq_true, or_assoc, h])]
  exact refused_error _

theorem low_lt_of_toXSel {v : BitVec 4} {x : XSel} (h : toXSel (v.extractLsb' 0 3) = some x) : v.toNat % 8 < 6 := by
  revert v x; decide

/-- A bit of a four-bit field is its number's. -/
theorem getMsbD_zero_iff (v : BitVec 4) : v.getMsbD 0 = true ↔ 8 ≤ v.toNat := by revert v; decide

/-- Class 100 refuses what the part of it that the function code selects refuses (R153, R154). -/
theorem decodePipe_refused
    (ht : (fFn w).toNat < 6 → ∀ x, Refused (decodeRegTransfer (fI w) (fR w) (toReg (fR2 w)) x))
    (hm : (fFn w).toNat = 6 → Refused (decodeMem (fI w) (fR w) (toReg (fR2 w))))
    (hs : (fFn w).toNat = 7 → Refused (decodeSink (fI w) (fR w) (toReg (fR2 w))))
    (hr : 8 ≤ (fFn w).toNat → (fFn w).toNat < 14 → ∀ x, Refused (decodeRd w x))
    (htd : (fFn w).toNat = 14 → Refused (decodeTd w))
    (hmm : (fFn w).toNat = 15 → Refused (decodeMmd w)) : Refused (decodePipe w) := by
  refine refused_ifUnusedZero (.inr ?_)
  have hmsb := getMsbD_zero_iff (fFn w)
  split
  case h_1 x hx hb =>
    have := low_lt_of_toXSel hx
    exact ht (by rw [hb] at hmsb; simp at hmsb; omega) x
  case h_2 x hx hb =>
    have := low_lt_of_toXSel hx
    have := (fFn w).isLt
    exact hr (hmsb.mp hb) (by omega) x
  case h_3 hx hb =>
    split
    next h6 => exact hm (by rw [h6]; rfl)
    next h6 =>
      have h7 : fFn w = 0x7#4 := by simpa [hb, h6] using eq_of_toXSel_none hx
      exact hs (by rw [h7]; rfl)
  case h_4 hx hb =>
    split
    next he => exact htd (by rw [he]; rfl)
    next he =>
      have hf : fFn w = 0xF#4 := by simpa [hb, he] using eq_of_toXSel_none hx
      exact hmm (by rw [hf]; rfl)

/-- R160 (e): the dashed combinations of device and manner. -/
theorem decodePipe_refused_of_dash (hb : (fFn w).toNat < 8) (h : 8 ≤ (fR w).toNat ∨
    (fI w = true ∧ ((fR w).toNat = 1 ∨ (fR w).toNat = 2 ∨ (fR w).toNat = 3)) ∨
    (fI w = false ∧ (fR w).toNat = 6 ∧ (fFn w).toNat = 7) ∨ ((fFn w).toNat < 6 ∧ ((fR w).toNat = 2 ∨ (fR w).toNat = 3)) ∨
    ((fFn w).toNat < 6 ∧ fI w = true ∧ ((fR w).toNat = 5 ∨ (fR w).toNat = 6))) : Refused (decodePipe w) := by
  refine decodePipe_refused (fun hf x => decodeRegTransfer_refused ?_) (fun hf => decodeMem_refused ?_)
    (fun hf => decodeSink_refused ?_) (fun _ _ => ?_) (fun _ => ?_) (fun _ => ?_)
  · rcases h with hr | hr | ⟨-, -, h7⟩ | ⟨-, hr⟩ | ⟨-, hr⟩
    · exact .inl hr
    · exact .inr (.inl hr)
    · omega
    · exact .inr (.inr (or_assoc.mp (.inl hr)))
    · exact .inr (.inr (.inr (.inr (.inl hr))))
  · rcases h with hr | hr | ⟨-, -, h7⟩ | ⟨h6, -⟩ | ⟨h6, -⟩
    · exact .inl hr
    · exact .inr (.inl hr)
    all_goals omega
  · rcases h with hr | hr | ⟨hi, hr, -⟩ | ⟨h6, -⟩ | ⟨h6, -⟩
    · exact .inl hr
    · exact .inr (.inl hr)
    · exact .inr (.inr (.inl ⟨hi, hr⟩))
    all_goals omega
  all_goals omega

/-- R160 (g): the DA field of the instructions of the directive register, RLOMDR apart. -/
theorem decodePipe_refused_of_directive (hb : (fFn w).toNat < 8) (hr : (fR w).toNat = 7) (h : 6 ≤ (fFn w).toNat ∨ fI w = true)
    (hd : fR2 w ≠ 0) : Refused (decodePipe w) := by
  replace hd := toReg_eq_zero_iff.not.mpr hd
  refine decodePipe_refused (fun hf x => decodeRegTransfer_refused ?_) (fun _ => decodeMem_refused (.inr (.inr (.inl ⟨hr, hd⟩))))
    (fun _ => decodeSink_refused (.inr (.inr (.inr ⟨hr, hd⟩)))) (fun _ _ => ?_) (fun _ => ?_) (fun _ => ?_)
  · exact .inr (.inr (.inr (.inr (.inr ⟨h.resolve_left (by omega), hr, hd⟩))))
  all_goals omega

/-- R160 (g): the DA field of NOMM. -/
theorem decodePipe_refused_of_nomm (hf : (fFn w).toNat = 6) (hi : fI w = true) (hr : (fR w).toNat = 5) (hd : fR2 w ≠ 0) :
    Refused (decodePipe w) := by
  refine decodePipe_refused (fun _ _ => ?_) (fun _ => decodeMem_refused (.inr (.inr (.inr ⟨hi, hr, toReg_eq_zero_iff.not.mpr hd⟩))))
    (fun _ => ?_) (fun _ _ => ?_) (fun _ => ?_) (fun _ => ?_)
  all_goals omega

/-- R160 (f): draws. -/
theorem decodePipe_refused_of_draw
    (h : (8 ≤ (fFn w).toNat ∧ (fFn w).toNat < 14 ∧ (fI w = true ∨ (fR w).getMsbD 0 = true ∨ (fR2 w).getMsbD 0 = true)) ∨
    ((fFn w).toNat = 15 ∧ (fI w = true ∨ (fR w).getMsbD 0 = true ∨ (fR2 w).extractLsb' 0 3 ≠ 2)) ∨
    ((fFn w).toNat = 14 ∧ (fR w).getMsbD 0 = true ∧ fI w = false)) : Refused (decodePipe w) := by
  rcases h with ⟨h8, h14, h⟩ | ⟨hf, h⟩ | ⟨hf, h⟩
  · refine decodePipe_refused (fun _ _ => ?_) (fun _ => ?_) (fun _ => ?_) (fun _ _ _ => decodeRd_refused h) (fun _ => ?_) (fun _ => ?_)
    all_goals omega
  · refine decodePipe_refused (fun _ _ => ?_) (fun _ => ?_) (fun _ => ?_) (fun _ _ => ?_) (fun _ => ?_) (fun _ => decodeMmd_refused h)
    all_goals omega
  · refine decodePipe_refused (fun _ _ => ?_) (fun _ => ?_) (fun _ => ?_) (fun _ _ => ?_) (fun _ => decodeTd_refused h) (fun _ => ?_)
    all_goals omega

end

/-! ### The statement -/

section

variable {w : Word}

theorem decode_refused_of_alu (hc : fieldAt w 1 3 = 6) (h : Refused (decodeAlu w)) : Refused (decode w) := by
  rwa [decode, decodeWith_of_aluClass (fClass_of_fieldAt w hc)]

theorem decode_refused_of_pipe (hc : fieldAt w 1 3 = 4) (h : Refused (decodePipe w)) : Refused (decode w) := by
  rwa [decode, decodeWith_of_pipeClass (fClass_of_fieldAt w hc)]

theorem decode_refused_of_stack (hc : fieldAt w 0 3 = 7) (h : Refused (decodeStack false w)) : Refused (decode w) := by
  rwa [decode, decodeWith_of_stackClass (BitVec.eq_of_toNat_eq (fieldAt_class w ▸ hc))]

theorem decode_refused_of_unary (hc : fieldAt w 0 3 = 13) (h : Refused (decodeUnaryClass w)) : Refused (decode w) := by
  rwa [decode, decodeWith_of_unaryClass (BitVec.eq_of_toNat_eq (fieldAt_class w ▸ hc))]

theorem decode_refused_of_shift (hc : fieldAt w 0 3 = 5) (h : Refused (decodeShift w)) : Refused (decode w) := by
  rwa [decode, decodeWith_of_shiftClass (BitVec.eq_of_toNat_eq (fieldAt_class w ▸ hc))]

theorem getMsbD_fFn_eq_false (h : (fFn w).getMsbD 0 = false) : (fFn w).toNat < 8 := by
  have := getMsbD_zero_iff (fFn w)
  simp [h] at this
  exact this

theorem ne_of_toNat_ne {k n : Nat} {v : BitVec k} (h : v.toNat ≠ (BitVec.ofNat k n).toNat) : v ≠ BitVec.ofNat k n := fun e => h (e ▸ rfl)

end

/-- Settles O4: each class of the undefined encodings is refused by the part of the decoder that its class nibble and function code select. -/
theorem undefinedEncodingsAreRefused : Obligations.UndefinedEncodingsAreRefused := by
  intro w h
  change Refused (decode w)
  simp only [fieldAt_r, fieldAt_unused, fieldAt_unusedB, fieldAt_r2, fieldAt_fn, fieldAt_r2_low, bitAt_i, bitAt_r, bitAt_r2, bitAt_fn] at h
  rcases h with ⟨hc, h⟩ | ⟨hc, h⟩ | ⟨hc, h⟩ | ⟨hc, hb, h⟩ | ⟨hc, h8, h14, h⟩ | ⟨hc, hf, h⟩ | ⟨hc, hf, h4, h0⟩ | ⟨hc, h⟩ | ⟨hc, h⟩ |
    ⟨hc, hf, h⟩ | ⟨hc, hf, h⟩ | ⟨hc, hf, h⟩ | ⟨hc, hf, h⟩ | ⟨hc, hb, hr, hf, h⟩ | ⟨hc, hf, hr, h⟩
  · exact decode_refused_of_alu hc (decodeAlu_refused (or_assoc.mp (.inl h)))
  · exact decode_refused_of_stack hc (decodeStack_refused (h.imp_right fun h => or_assoc.mp (.inl h)))
  · exact decode_refused_of_unary hc (decodeUnaryClass_refused (h.imp (fun h => ⟨h.1, ne_of_toNat_ne h.2⟩) .inl))
  · rw [getMsbD_zero_iff] at h
    exact decode_refused_of_pipe hc (decodePipe_refused_of_dash (getMsbD_fFn_eq_false hb) h)
  · exact decode_refused_of_pipe hc (decodePipe_refused_of_draw (.inl ⟨h8, h14, h⟩))
  · exact decode_refused_of_pipe hc (decodePipe_refused_of_draw (.inr (.inl ⟨hf, h.imp_right (.imp_right ne_of_toNat_ne)⟩)))
  · exact decode_refused_of_pipe hc (decodePipe_refused_of_draw (.inr (.inr ⟨hf, h4, h0⟩)))
  · exact decode_refused_of_pipe hc (refused_ifUnusedZero (.inl (ne_of_toNat_ne h)))
  · exact decode_refused_of_shift hc (decodeShift_refused (ne_of_toNat_ne h))
  · exact decode_refused_of_unary hc (decodeUnaryClass_refused (.inr (.inr (.inl ⟨hf, ne_of_toNat_ne h⟩))))
  · exact decode_refused_of_unary hc (decodeUnaryClass_refused (.inr (.inr (.inr ⟨hf, ne_of_toNat_ne h⟩))))
  · exact decode_refused_of_alu hc (decodeAlu_refused (.inr (.inr ⟨hf, ne_of_toNat_ne h⟩)))
  · exact decode_refused_of_stack hc (decodeStack_refused (.inr (.inr (.inr ⟨hf, ne_of_toNat_ne h⟩))))
  · exact decode_refused_of_pipe hc (decodePipe_refused_of_directive (getMsbD_fFn_eq_false hb) hr hf (ne_of_toNat_ne h))
  · have hcl : fClass w = 0xC#4 := BitVec.eq_of_toNat_eq (fieldAt_class w ▸ hc)
    have hi : fI w = true := by rw [fI_eq, hcl]; rfl
    rw [decode, decodeWith_of_pipeClass (.inr hcl)]
    exact decodePipe_refused_of_nomm hf hi hr (ne_of_toNat_ne h)

end Sys2Proof
end

section
/-!
A word of each format, written out from the encoding tables (R151 to R159, R461).
-/

namespace Sys2Proof

/-- Settles O3: the decoder run on each word. -/
theorem decodesWordsOfTheTables : Obligations.DecodesWordsOfTheTables :=
  ⟨rfl, rfl, rfl, rfl, rfl, rfl, rfl, rfl, rfl, rfl, rfl, rfl, rfl, rfl, rfl⟩

end Sys2Proof
end

section
/-!
What no instruction can do: a predicate that survives the elementary updates, the hidden word of XEQ and REX, the end of a jump and the IOTs
survives every instruction; three statements that are cases of it.
-/

namespace Sys2Proof.Machine

namespace Elementary

variable {P : State → Prop} (hP : Elementary P)

include hP

/-- A predicate that survives the elementary updates survives an instruction: `hjump` is asked of jumps alone, `hiot` of IOTs alone. -/
theorem exec {i : Instr} {s t : State} (hxw : ∀ (s : State) v, P s → P { s with xw := v })
    (hjump : isJump i = true → ∀ s, P s → P s.completeJump)
    (hiot : ∀ r dev, i = .iot r dev ∨ (i = .sleep ∧ dev = 0x0008) → P (s.iot r dev)) (h : P s)
    (he : exec i s = .next t) : P t := by
  cases i
  case lo => cases he; exact hP.withEA h _ _ _ _ fun _ _ ht => hP.withRead ht _ _ fun _ => hP.setReg ht _ _
  case st => cases he; exact hP.withEA h _ _ _ _ fun _ _ ht => hP.withWrite ht _ _ _ fun _ hu => hu
  case j => cases he; exact hP.withEA h _ _ _ _ fun _ _ ht => hjump rfl _ (hP.setPc ht _)
  case pushj => cases he; exact hP.withEA h _ _ _ _ fun _ _ ht => hP.pushPc ht _ fun _ hu => hjump rfl _ (hP.setPc hu _)
  case xeq => cases he; exact hP.withEA h _ _ _ _ fun _ _ ht => hP.withRead ht _ _ fun _ => hxw _ _ ht
  case rex => cases he; exact hxw _ _ h
  case regj => cases he; exact hjump rfl _ (hP.setPc h _)
  case regpj => cases he; exact hP.pushPc h _ fun _ hu => hjump rfl _ (hP.setPc hu _)
  case regjs | popj | popjof => cases he; exact hP.withRead h _ _ fun _ => hjump rfl _ (hP.setReg (hP.setReg (hP.setPc h _) _ _) _ _)
  case iot => cases he; exact hiot _ _ (.inl rfl)
  case sleep => cases he; exact hiot _ _ (.inr ⟨rfl, rfl⟩)
  case add | addnc | addi | addinc => cases he; exact hP.addTo h _ _ _
  case sub | subnb | subi | subinb => cases he; exact hP.subFrom h _ _ _
  case rlo | or | xor | and | ilo | ilom => cases he; exact hP.setReg h _ _
  case rloz | xorz | andz | orz | iloz | ilomz => cases he; exact hP.skipIf (hP.setReg h _ _) _
  case xornz | andnz | ce | cne | cei | cnei | cemi | cnemi => cases he; exact hP.skipIf h _
  case cshr | cshl | lshr | ashr | mr | ml => cases he; exact hP.shiftReg h _ _
  case lshl | ashl => cases he; exact hP.leftShift h _ _
  case ashrd | lshrd => cases he; exact hP.setPair h _ _
  case lshld | ashld => cases he; exact hP.leftShiftPair h _ _
  case sob | szb | clb | setb | sobcl | szbcl | sobset | szbset => cases he; exact hP.bitOp h _ _ _ _
  case push => cases he; exact hP.pushPlain h _ _
  case ipush | dpush => cases he; exact hP.pushBefore h _ _ _
  case pushi | pushd => cases he; exact hP.pushAfter h _ _ _
  case pop => cases he; exact hP.popPlain h _ _
  case ipop | dpop => cases he; exact hP.popBefore h _ _ _
  case popi | popd => cases he; exact hP.popAfter h _ _ _
  case td | tdr | tdi | tdir | tdix | tdixr | mmd | mmdr | rd => cases he; exact hP.startDraw h _ _ _
  case sd => cases he; exact hP.withEA h _ _ _ _ fun _ _ ht => hP.singleDraw ht _ _
  case nop => cases he; exact h
  case rlocla | rloclr | rlomma | rlommr | rlommp | rstcl | rstmm | rlomdr | rstmdr => cases he; exact hP.registerForm h _ _ _ _
  case locla | loclr | loclsa | loclsr | lomma | lommr | lommp | lomdr | stcl | stmm | nomm | popmm | stmdr => cases he; exact hP.memoryForm h _ _ _
  case rtcla | rtclr | rtclsa | rtclsr | rtmm | rtmms | rtmdr | skcl | skmm | skmms | pushmm | skmdr => cases he; exact hP.sinkForm h _ _ _
  all_goals cases he; exact hP.unary h _ _ _

end Elementary

/-! ### IOTs (R383, R384) -/

/-- An IOT is refused, or the action of its code is taken in a mode that may issue it. -/
theorem State.iot_cases (s : State) (r : Reg) (dev : BitVec 16) :
    s.iot r dev = s.illegalIot dev ∨
      ((s.mode = .executive ∨ userLegal (deviceCode s.params.iotDevHighIgnored dev) = true) ∧
        s.iotAction r (deviceCode s.params.iotDevHighIgnored dev) = some (s.iot r dev)) := by
  unfold State.iot
  dsimp only
  split
  next t ht =>
    split
    next hm => exact .inr ⟨hm, ht⟩
    next => exact .inl rfl
  next => exact .inl rfl

/-- The codes a user may issue write REPEAT STATUS, DIRECTIVE, a register or the PC (R382). -/
theorem State.iotAction_userLegal {s t : State} {r : Reg} {d : Nat} (hu : userLegal d = true) (h : s.iotAction r d = some t) :
    t = { s with rsr := t.rsr, dir := t.dir, regs := t.regs, pc := t.pc } := by
  have hd : d = 0x18 ∨ d = 0x19 ∨ d = 0x1A ∨ d = 0x1B ∨ d = 0x1E := by simpa [userLegal, or_assoc] using hu
  rcases hd with rfl | rfl | rfl | rfl | rfl <;> cases h
  case inr.inr.inr.inr.refl => cases s.settled <;> rfl
  all_goals rfl

/-- Of all IOTs 002 alone writes the INTERRUPT CONDITIONS register (R386). -/
theorem State.iotAction_icr {s t : State} {r : Reg} {d : Nat} (hd : d ≠ 2) (h : s.iotAction r d = some t) : t.icr = s.icr := by
  unfold State.iotAction at h
  split at h <;> cases h
  case h_2 => exact absurd rfl hd
  case h_18 => exact State.skipIf_icr _ _
  case h_20 => exact State.skipIf_icr _ _
  all_goals rfl

/-! ### User mode (R382, R383, R563, R620) -/

/-- The elementary updates leave the privileged state of user mode. -/
theorem elementary_samePrivileged {s : State} (hs : s.mode = .user) : Elementary s.samePrivileged where
  regs _ _ h := h
  pc _ _ h := h
  mem _ _ _ h := h
  cond _ _ h := h
  raised _ h := h
  hit _ h := h
  aic _ _ h := h
  rsr _ _ h := h
  mm _ _ h := h
  mdir _ _ h := h
  cd u c hc h := by
    obtain ⟨mode, imr, protection, bar, sync, lights, attention, sleeping, pendUser, pendIon, lockLo, lockHi, host, permit, rest⟩ := h
    exact ⟨mode, imr, protection, bar, sync, lights, attention, sleeping, pendUser, pendIon, lockLo, lockHi, host,
      (hc (mode.trans hs)).trans permit, rest⟩
  scope _ _ h := h
  queue _ _ h := h
  turns _ _ _ _ h := h
  hostSeen _ _ h := h
  freeIx _ _ h := h

theorem State.samePrivileged_refl (s : State) : s.samePrivileged s :=
  ⟨rfl, rfl, rfl, rfl, rfl, rfl, rfl, rfl, rfl, rfl, rfl, rfl, rfl, rfl, rfl, rfl⟩

/-- Settles O10: a jump has nothing pending to end, and an IOT of a user's does no more than the elementary updates do. -/
theorem userInstructionsKeepPrivilegedState : Obligations.UserInstructionsKeepPrivilegedState := by
  intro i s t hs hclean he
  obtain ⟨hpu, hpi, -⟩ := hclean hs
  have hP := elementary_samePrivileged hs
  refine hP.exec (fun _ _ h => h) (fun _ u hu => ?_) (fun r dev _ => ?_) s.samePrivileged_refl he
  · have ⟨_, _, _, _, _, _, _, _, pendUser, pendIon, _⟩ := hu
    rwa [State.completeJump_plain (pendIon.trans hpi) (pendUser.trans hpu)]
  · rcases s.iot_cases r dev with h | ⟨hm, h⟩
    · rw [h]
      exact hP.illegalIot (fun _ => s.samePrivileged_refl) dev
    · rw [State.iotAction_userLegal (hm.resolve_left (by simp [hs])) h]
      exact s.samePrivileged_refl

/-! ### Either mode (R237, R620) -/

/-- The control state of O11: what only jumps and IOTs change. -/
def State.sameControl (s t : State) : Prop :=
  t.mode = s.mode ∧ t.imr = s.imr ∧ t.protection = s.protection ∧ t.bar = s.bar ∧ t.sync = s.sync ∧ t.lights = s.lights ∧
    t.iodce = s.iodce ∧ t.attention = s.attention ∧ t.sleeping = s.sleeping ∧ t.pendUser = s.pendUser ∧
    t.pendIon = s.pendIon ∧ t.lockLo = s.lockLo ∧ t.lockHi = s.lockHi ∧ t.hostInterrupt = s.hostInterrupt

theorem elementary_sameControl (s : State) : Elementary s.sameControl where
  regs _ _ h := h
  pc _ _ h := h
  mem _ _ _ h := h
  cond _ _ h := h
  raised _ h := h
  hit _ h := h
  aic _ _ h := h
  rsr _ _ h := h
  mm _ _ h := h
  mdir _ _ h := h
  cd _ _ _ h := h
  scope _ _ h := h
  queue _ _ h := h
  turns _ _ _ _ h := h
  hostSeen _ _ h := h
  freeIx _ _ h := h

/-- Settles O11: no elementary update reaches the control state. -/
theorem onlyJumpsAndIotsChangeControlState : Obligations.OnlyJumpsAndIotsChangeControlState := by
  intro i s t hj hi he
  refine (elementary_sameControl s).exec (fun _ _ h => h) (fun h => absurd h (by simp [hj])) (fun r dev h => ?_)
    ⟨rfl, rfl, rfl, rfl, rfl, rfl, rfl, rfl, rfl, rfl, rfl, rfl, rfl, rfl⟩ he
  rcases h with rfl | ⟨rfl, -⟩ <;> cases hi

/-! ### Conditions (R605) -/

/-- A condition recorded clears no bit. -/
theorem elementary_bitAt_icr (k : Nat) : Elementary fun s => bitAt s.icr k = true where
  regs _ _ h := h
  pc _ _ h := h
  mem _ _ _ h := h
  cond s c h := by simp [h]
  raised _ h := h
  hit _ h := h
  aic _ _ h := h
  rsr _ _ h := h
  mm _ _ h := h
  mdir _ _ h := h
  cd _ _ _ h := h
  scope _ _ h := h
  queue _ _ h := h
  turns _ _ _ _ h := h
  hostSeen _ _ h := h
  freeIx _ _ h := h

/-- Settles O12: the elementary updates and the end of a jump clear no bit of the register, and of the IOTs 002 alone writes it. -/
theorem conditionsStayUntilIot : Obligations.ConditionsStayUntilIot := by
  intro i s t k hi he h
  have hP := elementary_bitAt_icr k
  refine hP.exec (fun _ _ h => h) (fun _ u hu => by rwa [u.completeJump_frame]) (fun r dev hr => ?_) h he
  have hd : deviceCode s.params.iotDevHighIgnored dev ≠ 2 := by
    rcases hr with rfl | ⟨-, rfl⟩
    · exact hi r dev rfl
    · cases s.params.iotDevHighIgnored <;> decide
  rcases s.iot_cases r dev with h' | ⟨-, h'⟩
  · rw [h']
    exact hP.illegalIot (s := s) (fun _ => h) dev
  · rwa [State.iotAction_icr hd h']

end Sys2Proof.Machine
end

section
/-!
What every step keeps: a predicate that survives the elementary updates, the other agents' actions, the entry of an interrupt and the execution
of a word survives a step; the two invariants are cases of it.
-/

namespace Sys2Proof.Machine

/-! ### The end of a jump -/

/-- What an enable that takes effect changes: the two locks (R621). -/
theorem State.unlock_frame (s : State) : s.unlock = { s with lockLo := s.unlock.lockLo, lockHi := s.unlock.lockHi } := by
  unfold State.unlock
  repeat' split
  all_goals rfl

/-- The end of a jump as one update (R621, R622). -/
theorem State.completeJump_eq (s : State) : s.completeJump =
    { s with
      mode := if s.pendUser then .user else s.mode
      pendUser := false
      pendIon := false
      lockLo := if s.pendIon then s.unlock.lockLo else s.lockLo
      lockHi := if s.pendIon then s.unlock.lockHi else s.lockHi } := by
  have keep : s.unlock.pendUser = s.pendUser := by rw [s.unlock_frame]
  unfold State.completeJump
  cases hi : s.pendIon <;> cases hu : s.pendUser
  case false.false => cases s; simp_all
  case false.true => cases s; simp_all
  case true.false => simp only [keep, hu, if_true, Bool.false_eq_true, if_false]; rw [s.unlock_frame]
  case true.true => simp only [keep, hu, if_true]; rw [s.unlock_frame]
/-! ### The parts of a step -/

/-- `P` survives what a step is made of beside the elementary updates. A word is executed awake, since the machine asleep does nothing but
take an interrupt, which ends the sleep (R610, R635). -/
structure Stepwise (P : State → Prop) : Prop extends Elementary P where
  besidePipeline : ∀ (s : State) e, P s → P (s.besidePipeline e)
  notRaised : ∀ (s : State), P s → P { s with raised := false }
  noXw : ∀ (s : State), P s → P { s with xw := none }
  newTurns : ∀ (s : State) v, P s → P { s with turns := v }
  newInputs : ∀ (s : State) v, P s → P { s with inputs := v }
  entered : ∀ (s : State) high, P s → P (s.entered high)
  runWord : ∀ (s : State) w, s.sleeping = false → P s → P (s.runWord w)

/-- What an action of another agent that is no pipeline step may change (R15). -/
theorem State.besidePipeline_frame (s : State) (e : AgentEvent) : s.besidePipeline e =
    { s with
      icr := (s.besidePipeline e).icr, protFF := (s.besidePipeline e).protFF, switches := (s.besidePipeline e).switches
      attention := (s.besidePipeline e).attention, attentionMask := (s.besidePipeline e).attentionMask
      stopMask := (s.besidePipeline e).stopMask, hostInterrupt := (s.besidePipeline e).hostInterrupt
      mem := (s.besidePipeline e).mem, hostSeen := (s.besidePipeline e).hostSeen } := by
  cases e
  case tick c => unfold State.besidePipeline State.tick; dsimp only; split <;> rfl
  case hostRead a => unfold State.besidePipeline State.hostRead; dsimp only; split <;> rfl
  case hostWrite a v => unfold State.besidePipeline State.hostWrite; dsimp only; split <;> rfl
  all_goals rfl

section

variable (s : State) (e : AgentEvent)

@[simp] theorem State.besidePipeline_sleeping : (s.besidePipeline e).sleeping = s.sleeping := by rw [s.besidePipeline_frame e]
@[simp] theorem State.besidePipeline_raised : (s.besidePipeline e).raised = s.raised := by rw [s.besidePipeline_frame e]
@[simp] theorem State.besidePipeline_params : (s.besidePipeline e).params = s.params := by rw [s.besidePipeline_frame e]

end

/-- Every state that the actions of a turn lead through keeps what each action keeps. -/
theorem State.popTurn_induction {Q : State → Prop} {act : State → AgentEvent → State} {s : State}
    (hrest : ∀ rest, Q { s with turns := rest }) (hact : ∀ t e, Q t → Q (act t e)) (h : Q s) : Q (s.popTurn act) := by
  unfold State.popTurn
  split
  · exact h
  next es rest _ =>
    have fold : ∀ (l : List AgentEvent) (t : State), Q t → Q (l.foldl act t) := by
      intro l
      induction l with
      | nil => exact fun _ ht => ht
      | cons e l ih => exact fun t ht => ih _ (hact t e ht)
    exact fold es _ (hrest rest)

theorem State.afterFetch_sleeping (s : State) : s.afterFetch.sleeping = s.sleeping :=
  State.popTurn_induction (Q := fun t => t.sleeping = s.sleeping) (fun _ => rfl)
    (fun t e h => (t.besidePipeline_sleeping e).trans h) rfl

theorem State.agent_of_ne_pipeline (s : State) {e : AgentEvent} (h : e ≠ .pipeline) : s.agent e = s.besidePipeline e := by
  cases e
  case pipeline => exact absurd rfl h
  all_goals rfl

namespace Stepwise

variable {P : State → Prop} (hP : Stepwise P) {s : State}

include hP

theorem afterFetch (h : P s) : P s.afterFetch := hP.popTurn h fun _ _ ht => hP.besidePipeline _ _ ht

theorem agent (h : P s) (e : AgentEvent) : P (s.agent e) := by
  by_cases he : e = .pipeline
  · rw [he]
    exact hP.pipelineStep h
  · rw [s.agent_of_ne_pipeline he]
    exact hP.besidePipeline s e h

theorem takeInterrupt (h : P s) : P s.takeInterrupt := by
  unfold State.takeInterrupt State.enter
  split
  next w _ => exact hP.runWord _ w (by rw [State.afterFetch_sleeping]; rfl) (hP.afterFetch (hP.entered _ _ h))
  next => exact hP.cond _ _ h

theorem testB (n : Nat) : ∀ {s : State}, P s → P (State.testB n s) := by
  induction n with
  | zero => exact fun h => hP.notRaised _ h
  | succ n ih =>
    intro s h
    have ht := hP.notRaised _ (hP.popTurn h (act := State.agent) fun _ e hu => hP.agent hu e)
    unfold State.testB
    split
    · dsimp only
      split
      · exact ih (hP.takeInterrupt ht)
      · exact ht
    · exact h

theorem fetchAndRun (hs : s.sleeping = false) (h : P s) : P s.fetchAndRun := by
  unfold State.fetchAndRun
  dsimp only
  split
  next w _ => exact hP.runWord _ w ((State.afterFetch_sleeping _).trans hs) (hP.afterFetch (hP.setPc h _))
  next => exact hP.raise (hP.setPc h _) _

theorem cycleA (h : P s) : P s.cycleA := by
  unfold State.cycleA
  split
  · split
    · exact hP.takeInterrupt h
    · exact h
  next hs =>
    replace hs : s.sleeping = false := by simpa using hs
    split
    next w _ =>
      split
      · exact hP.takeInterrupt h
      · exact hP.runWord _ w hs (hP.noXw _ h)
    next =>
      split
      · exact hP.takeInterrupt (hP.setPc h _)
      · exact hP.fetchAndRun hs h

theorem cycle (h : P s) : P s.cycle := hP.testB 2 (hP.cycleA (hP.notRaised _ h))

theorem idle (h : P s) : P s.idle := by
  have ht := hP.settle (hP.newTurns _ [] h)
  unfold State.idle
  dsimp only
  split
  · exact hP.testB 2 ht
  · exact hP.cycle ht

theorem event (h : P s) (e : Input) : P (s.event e) := by
  cases e with
  | cycle ts => exact hP.newTurns _ _ (hP.cycle (hP.newTurns _ _ h))
  | agent ts e =>
    have ha := hP.agent (hP.newTurns _ ts h) e
    cases e
    case pipeline => exact hP.newTurns _ _ (hP.testB 2 ha)
    all_goals exact hP.newTurns _ _ ha

/-- A step keeps what its parts keep. -/
theorem step {t : State} (h : P s) (ht : step s = .next t) : P t := by
  cases hi : s.inputs with
  | nil =>
    rw [step_idle hi] at ht
    cases ht
    exact hP.idle h
  | cons e rest =>
    rw [step_event hi] at ht
    cases ht
    exact hP.event (hP.newInputs _ _ h) e

end Stepwise

/-- The execution of a word keeps what the elementary updates and every instruction keep. -/
theorem Elementary.runWord {P : State → Prop} (hP : Elementary P) {s : State} (h : P s) (w : Word)
    (hexec : ∀ i, P (outcomeState s (Machine.exec i s))) : P (s.runWord w) := by
  unfold State.runWord
  split
  · exact hexec _
  · exact hP.raise h _

/-! ### The memory and SETTLED (R573) -/

theorem elementary_inv : Elementary State.Inv where
  regs _ _ h := ⟨h.memory, h.settledBit⟩
  pc _ _ h := ⟨h.memory, h.settledBit⟩
  mem _ _ _ h := ⟨Memory.wf_writeWord h.memory _ _, h.settledBit⟩
  cond _ _ h := ⟨h.memory, h.settledBit⟩
  raised _ h := ⟨h.memory, h.settledBit⟩
  hit _ h := ⟨h.memory, by simp [h.settledBit]⟩
  aic _ _ h := ⟨h.memory, by simp [h.settledBit]⟩
  rsr _ _ h := ⟨h.memory, h.settledBit⟩
  mm _ _ h := ⟨h.memory, h.settledBit⟩
  mdir _ _ h := ⟨h.memory, h.settledBit⟩
  cd _ _ _ h := ⟨h.memory, h.settledBit⟩
  scope _ _ h := ⟨h.memory, h.settledBit⟩
  queue _ _ h := ⟨h.memory, h.settledBit⟩
  turns _ _ _ _ h := ⟨h.memory, h.settledBit⟩
  hostSeen _ _ h := ⟨h.memory, h.settledBit⟩
  freeIx _ _ h := ⟨h.memory, h.settledBit⟩

/-- An IOT keeps the invariant: the load of DIRECTIVE leaves SETTLED out (R401). -/
theorem State.Inv.iot {s : State} (h : s.Inv) (r : Reg) (dev : BitVec 16) : (s.iot r dev).Inv := by
  rcases s.iot_cases r dev with h' | ⟨-, h'⟩
  · rw [h']
    exact elementary_inv.illegalIot (s := s) (fun _ => ⟨h.memory, h.settledBit⟩) dev
  · generalize s.iot r dev = t at h'
    unfold State.iotAction at h'
    split at h' <;> cases h'
    case h_16 => exact ⟨h.memory, by simp [State.loadDir]⟩
    case h_18 | h_20 => exact elementary_inv.skipIf h _
    all_goals exact ⟨h.memory, h.settledBit⟩

theorem State.Inv.completeJump {s : State} (h : s.Inv) : s.completeJump.Inv := by
  rw [s.completeJump_frame]
  exact ⟨h.memory, h.settledBit⟩

theorem State.Inv.exec {s : State} (h : s.Inv) (i : Instr) : (outcomeState s (exec i s)).Inv :=
  elementary_inv.exec (fun _ _ h => ⟨h.memory, h.settledBit⟩) (fun _ _ h => h.completeJump) (fun r dev _ => h.iot r dev) h
    (exec_outcomeState i s)

theorem stepwise_inv : Stepwise State.Inv where
  toElementary := elementary_inv
  besidePipeline s e h := by
    cases e
    case tick c => exact Elementary.choice (elementary_inv.cond _ _ h) h
    case hostRead => exact elementary_inv.hostRead h _
    case hostWrite => exact elementary_inv.hostWrite h _ _
    all_goals exact ⟨h.memory, h.settledBit⟩
  notRaised _ h := ⟨h.memory, h.settledBit⟩
  noXw _ h := ⟨h.memory, h.settledBit⟩
  newTurns _ _ h := ⟨h.memory, h.settledBit⟩
  newInputs _ _ h := ⟨h.memory, h.settledBit⟩
  entered _ _ h := ⟨h.memory, h.settledBit⟩
  runWord _ w _ h := elementary_inv.runWord h w h.exec

/-! ### Test point (B) is made before the step ends (R602, R610) -/

theorem State.testB_raised (n : Nat) (s : State) : (State.testB n s).raised = false := by
  induction n generalizing s with
  | zero => rfl
  | succ n ih =>
    unfold State.testB
    split
    · dsimp only
      split
      · exact ih _
      · rfl
    next h => simpa using h

theorem State.idle_raised (s : State) : s.idle.raised = false := by
  unfold State.idle
  dsimp only
  split <;> exact State.testB_raised _ _

theorem State.event_raised {s : State} (h : s.raised = false) (e : Input) : (s.event e).raised = false := by
  cases e with
  | cycle ts => exact State.testB_raised _ _
  | agent ts e =>
    cases e
    case pipeline => exact State.testB_raised _ _
    case tick c => exact (State.besidePipeline_raised { s with turns := ts } (.tick c)).trans h
    case hostRead a => exact (State.besidePipeline_raised { s with turns := ts } (.hostRead a)).trans h
    case hostWrite a v => exact (State.besidePipeline_raised { s with turns := ts } (.hostWrite a v)).trans h
    all_goals exact h

/-- Settles O7: by `Stepwise`; and every way through a step ends with test point (B), but for another agent's action, which leaves
the field as it was. -/
theorem everyStepKeepsTheInvariant : Obligations.EveryStepKeepsTheInvariant := by
  intro s t h ht
  refine ⟨stepwise_inv.step h ht, fun hr => ?_⟩
  cases hi : s.inputs with
  | nil =>
    rw [step_idle hi] at ht
    cases ht
    exact s.idle_raised
  | cons e rest =>
    rw [step_event hi] at ht
    cases ht
    exact State.event_raised (s := { s with inputs := rest }) hr e

/-! ### The user mode (R382, R392, R393, R610, R620) -/

theorem elementary_userClean : Elementary State.UserClean where
  regs _ _ h := h
  pc _ _ h := h
  mem _ _ _ h := h
  cond _ _ h := h
  raised _ h := h
  hit _ h := h
  aic _ _ h := h
  rsr _ _ h := h
  mm _ _ h := h
  mdir _ _ h := h
  cd _ _ _ h := h
  scope _ _ h := h
  queue _ _ h := h
  turns _ _ _ _ h := h
  hostSeen _ _ h := h
  freeIx _ _ h := h

/-- Awake, and clean in user mode: what a jump keeps. -/
def State.AwakeClean (s : State) : Prop := s.UserClean ∧ s.sleeping = false

theorem elementary_awakeClean : Elementary State.AwakeClean where
  regs _ _ h := h
  pc _ _ h := h
  mem _ _ _ h := h
  cond _ _ h := h
  raised _ h := h
  hit _ h := h
  aic _ _ h := h
  rsr _ _ h := h
  mm _ _ h := h
  mdir _ _ h := h
  cd _ _ _ h := h
  scope _ _ h := h
  queue _ _ h := h
  turns _ _ _ _ h := h
  hostSeen _ _ h := h
  freeIx _ _ h := h

/-- A jump ends everything pending, so the user mode that it may enter is clean (R621, R622). -/
theorem State.completeJump_pending (s : State) : s.completeJump.pendIon = false ∧ s.completeJump.pendUser = false := by
  rw [s.completeJump_eq]
  exact ⟨rfl, rfl⟩

theorem State.AwakeClean.completeJump {s : State} (h : s.AwakeClean) : s.completeJump.AwakeClean := by
  obtain ⟨hi, hu⟩ := s.completeJump_pending
  have hs : s.completeJump.sleeping = false := by rw [s.completeJump_frame]; exact h.2
  exact ⟨fun _ => ⟨hu, hi, hs⟩, hs⟩

/-- In user mode no IOT makes anything pending; in executive mode there is nothing to show. -/
theorem State.UserClean.iot {s : State} (h : s.UserClean) (r : Reg) (dev : BitVec 16) : (s.iot r dev).UserClean := by
  rcases s.iot_cases r dev with h' | ⟨hm | hm, h'⟩
  · rw [h']
    exact elementary_userClean.illegalIot (s := s) (fun _ => h) dev
  · intro hmode
    have hexec : (s.iot r dev).mode = .executive := by
      generalize s.iot r dev = t at h'
      unfold State.iotAction at h'
      split at h' <;> cases h'
      case h_18 | h_20 => rwa [State.skipIf_mode]
      all_goals exact hm
    rw [hexec] at hmode
    cases hmode
  · rw [State.iotAction_userLegal hm h']
    exact h

theorem State.UserClean.exec {s : State} (h : s.UserClean) (hs : s.sleeping = false) (i : Instr) :
    (outcomeState s (exec i s)).UserClean := by
  cases i
  case iot r dev => exact h.iot r dev
  case sleep => exact h.iot _ _
  all_goals
    refine (elementary_awakeClean.exec (fun _ _ h => h) (fun _ _ h => h.completeJump) (fun r dev hi => ?_) ⟨h, hs⟩
      (exec_outcomeState _ s)).1
    rcases hi with hi | ⟨hi, -⟩ <;> cases hi

theorem stepwise_userClean : Stepwise State.UserClean where
  toElementary := elementary_userClean
  besidePipeline s e h := by
    cases e
    case tick c => exact Elementary.choice (elementary_userClean.cond _ _ h) h
    case hostRead => exact elementary_userClean.hostRead h _
    case hostWrite => exact elementary_userClean.hostWrite h _ _
    all_goals exact h
  notRaised _ h := h
  noXw _ h := h
  newTurns _ _ h := h
  newInputs _ _ h := h
  entered _ _ _ h := by cases h
  runWord _ w hs h := elementary_userClean.runWord h w (h.exec hs)

/-- Settles O8: by `Stepwise`. -/
theorem everyStepKeepsUserModeClean : Obligations.EveryStepKeepsUserModeClean :=
  fun _ _ h ht => stepwise_userClean.step h ht

end Sys2Proof.Machine
end

section
/-!
The step with no event pending, and the instruction cycle (R103, R236, R602, R610, R635): settling leaves nothing for other agents to do, and
what follows it.
-/

namespace Sys2Proof.Machine

/-! ### No turns are made (log 16) -/

/-- No elementary update gives the other agents something to do. -/
theorem elementary_noTurns : Elementary fun s => s.turns = [] where
  regs _ _ h := h
  pc _ _ h := h
  mem _ _ _ h := h
  cond _ _ h := h
  raised _ h := h
  hit _ h := h
  aic _ _ h := h
  rsr _ _ h := h
  mm _ _ h := h
  mdir _ _ h := h
  cd _ _ _ h := h
  scope _ _ h := h
  queue _ _ h := h
  turns _ _ _ he h := by rw [h] at he; cases he
  hostSeen _ _ h := h
  freeIx _ _ h := h

theorem State.iot_turns (s : State) (r : Reg) (dev : BitVec 16) : (s.iot r dev).turns = s.turns := by
  rcases s.iot_cases r dev with h | ⟨-, h⟩
  · rw [h]
    rfl
  · generalize s.iot r dev = t at h
    unfold State.iotAction at h
    split at h <;> cases h
    case h_18 | h_20 => exact State.skipIf_turns _ _
    all_goals rfl

/-- No instruction gives the other agents something to do. -/
theorem turns_of_exec {i : Instr} {s t : State} (h : s.turns = []) (he : exec i s = .next t) : t.turns = [] :=
  elementary_noTurns.exec (fun _ _ h => h) (fun _ u hu => by rw [u.completeJump_frame]; exact hu)
    (fun r dev _ => (s.iot_turns r dev).trans h) h he

/-! ### The settled state (R430; log 17) -/

/-- The state in which a step with no event pending makes its cycle: the pipeline settled, and no condition of it left to be tested. -/
def State.ready (s : State) : State := { State.settle { s with turns := [] } with raised := false }

theorem State.ready_turns (s : State) : s.ready.turns = [] := elementary_noTurns.settle (s := { s with turns := [] }) rfl

/-- With no interrupt to be taken, a step with no event pending is the cycle of the settled state. -/
theorem step_of_no_interrupt {s : State} (hin : s.inputs = []) (hi : s.ready.interruptTaken = false) :
    step s = .next (State.testB 2 s.ready.cycleA) := by
  rw [step_idle hin, State.idle_cycle (.inr hi)]
  rfl

/-- A word fetched is executed with PC advanced (R103). -/
theorem State.fetchAndRun_ok {s : State} {w : Word} {i : Instr} (hw : s.memRead s.pc = .ok w)
    (hd : decodeWith s.params.stackBit22 w = .ok i) :
    s.fetchAndRun = outcomeState (s.setPc (s.pc + 1)).afterFetch (exec i (s.setPc (s.pc + 1)).afterFetch) := by
  have hp : (s.setPc (s.pc + 1)).afterFetch.params = s.params := State.popTurn_induction (Q := fun t => t.params = s.params) (fun _ => rfl)
    (fun t e h => (t.besidePipeline_params e).trans h) rfl
  simp only [State.fetchAndRun, hw]
  exact State.runWord_ok (hp ▸ hd)

/-! ### Interrupts that are not taken (R610, R635) -/

@[simp] theorem bitAt_zero (k : Nat) : bitAt 0#24 k = false := BitVec.getMsbD_zero

/-- Without mask bits no low-level interrupt is taken (R610). -/
theorem State.lowTaken_of_imr_zero {s : State} (h : s.imr = 0) : s.lowTaken = false := by
  simp [State.lowTaken, h, bitAt_zero]

/-- Asleep no low-level interrupt is taken (R635). -/
theorem State.lowTaken_of_sleeping {s : State} (h : s.sleeping = true) : s.lowTaken = false := by
  simp [State.lowTaken, h]

theorem State.highTaken_of_hostInterrupt {s : State} (h : s.hostInterrupt = false) : s.highTaken = false := by
  simp [State.highTaken, h]

/-! ### Statements about one cycle -/

/-- Settles O5: a cycle in which nothing intervenes is the fetch, and a word fetched that decodes is `exec` of its instruction. -/
theorem stepRunsDecodedInstruction : Obligations.StepRunsDecodedInstruction := by
  refine ⟨?settled, ?event⟩
  case settled =>
    intro s u w i hin hu hs hx hi hw hd
    obtain rfl : u = s.ready := hu
    have ht : (s.ready.setPc (s.ready.pc + 1)).turns = [] := s.ready_turns
    have hstep := step_of_no_interrupt hin hi
    rw [State.cycleA_fetch hs hx hi, State.fetchAndRun_ok hw hd, State.afterFetch_nil ht] at hstep
    exact ⟨_, exec_outcomeState i _, hstep, fun hr => hstep.trans (congrArg Host.Outcome.next (State.testB_quiet hr 2))⟩
  case event =>
    intro s u ts rest w i hin hu hs hx hi hw hd
    have hstep : step s = .next { State.testB 2 u.cycleA with turns := [] } := by rw [step_event hin, hu]; rfl
    rw [State.cycleA_fetch hs hx hi, State.fetchAndRun_ok hw hd] at hstep
    exact ⟨_, exec_outcomeState i _, hstep, fun hr => by rw [hstep, ← State.testB_quiet hr 2]; rfl⟩

/-! ### Abandoning (R602 to R604) -/

theorem Cond.bit_lt (c : Cond) : c.bit < 24 := by cases c <;> decide

/-- The bits of the register after a condition was recorded. -/
theorem bitAt_record_icr (s : State) (c : Cond) (k : Nat) : bitAt (s.record c).icr k = (bitAt s.icr k || decide (k = c.bit)) := by
  by_cases hk : k = c.bit <;> simp [hk, c.bit_lt]

theorem State.abandoned_raise (s : State) (c : Cond) : s.abandoned (s.raise c) c :=
  ⟨bitAt_record_icr s c, rfl, rfl, rfl⟩

theorem State.settle_of_nothing {s : State} (ht : s.turns = []) (hq : s.queue = []) : State.settle { s with turns := [] } = s := by
  rw [State.settle_of_empty (s := { s with turns := [] }) hq]
  cases s
  cases ht
  rfl

/-- A fetch without an instruction raises the condition of the fetch, or Unimplemented Instruction (R603, R604). -/
theorem State.fetchAndRun_raise {s : State} {c : Cond} (ht : s.turns = [])
    (h : (∃ w e, s.memRead s.pc = .ok w ∧ decodeWith s.params.stackBit22 w = .error e ∧ c = .unimplemented) ∨ s.memRead s.pc = .error c) :
    s.fetchAndRun = (s.setPc (s.pc + 1)).raise c := by
  unfold State.fetchAndRun
  dsimp only
  rcases h with ⟨w, e, hw, hd, rfl⟩ | hw
  · simp only [hw, State.afterFetch_nil (s := s.setPc (s.pc + 1)) ht]
    exact State.runWord_error hd
  · simp only [hw]

/-- With no interrupt to be taken, test point (B) at the end of a step changes nothing more (R610). -/
theorem step_of_testB {s t : State} (h : step s = .next (State.testB 2 t)) (hr : t.raised = true) (ht : t.turns = [])
    (hi : ({ t with raised := false } : State).interruptTaken = false) : step s = .next { t with raised := false } :=
  h.trans (congrArg Host.Outcome.next (State.testB_no_interrupt hr ht hi))

/-- Settles O6: the fetch raises in the state with PC advanced, and the step ends with test point (B). -/
theorem cyclesWithoutAnInstructionRaise : Obligations.CyclesWithoutAnInstructionRaise := by
  intro s c hin ht hq hs hx hi h
  have hready : s.ready = { s with raised := false } := by rw [State.ready, State.settle_of_nothing ht hq]
  have hcycle := (State.cycleA_fetch (s := { s with raised := false }) hs hx hi).trans (State.fetchAndRun_raise ht h)
  have hstep := step_of_no_interrupt hin (hready ▸ hi)
  rw [hready, hcycle] at hstep
  refine ⟨_, ?_, hstep, step_of_testB hstep rfl ht⟩
  exact ⟨bitAt_record_icr _ c, rfl, rfl, rfl⟩

/-- Settles O34: a cycle asleep does nothing. -/
theorem sleepWaitsForTheHighLevel : Obligations.SleepWaitsForTheHighLevel := by
  intro s u hin hu hs hh
  obtain rfl : u = s.ready := hu
  have hi : s.ready.interruptTaken = false := by
    rw [State.interruptTaken, hh, State.lowTaken_of_sleeping hs, Bool.or_self]
  have hcycle : s.ready.cycleA = s.ready := by
    rw [State.cycleA, if_pos hs, if_neg]
    simp [hh]
  rw [step_of_no_interrupt hin hi, hcycle, State.testB_quiet rfl]

/-! ### A word of XEQ or REX (R236) -/

/-- Settles O21: XEQ and REX by what they answer, the cycle after them by `State.cycleA_xw`. -/
theorem executeHoldsTheWordForTheNextCycle : Obligations.ExecuteHoldsTheWordForTheNextCycle := by
  refine ⟨?xeq, fun _ _ => rfl, ?next⟩
  case xeq =>
    rintro s _ i x addr e w he rfl hw
    exact congrArg Host.Outcome.next ((State.withEA_ok he _).trans (State.withRead_ok hw _))
  case next =>
    intro s u w i hin hu hs hx hi hd
    obtain rfl : u = s.ready := hu
    have hstep := step_of_no_interrupt hin hi
    rw [State.cycleA_xw hs hx hi, State.runWord_ok (s := { s.ready with xw := none }) hd] at hstep
    exact ⟨_, exec_outcomeState i _, hstep, fun hr => hstep.trans (congrArg Host.Outcome.next (State.testB_quiet hr 2))⟩

/-! ### Reset (R671) -/

theorem State.dirRead_settled {s : State} (h : s.queue = []) : bitAt s.dirRead 23 = true := by
  simp [State.dirRead, State.settled, h]

/-- Settles O9: each item is one that `State.coldStart` and `State.runAt` write, or leave to `base`. -/
theorem resetIsRunAtAndLegal : Obligations.ResetIsRunAtAndLegal := by
  refine ⟨fun base a vh vl mem => ⟨?items, rfl, rfl, rfl, rfl, ?asleep, ?woken, rfl, rfl, rfl, rfl, ?awake⟩, rfl, ⟨rfl, by decide⟩,
    by intro h; cases h⟩
  case items =>
    intro s hs
    simp only [List.mem_cons, List.not_mem_nil, or_false] at hs
    rcases hs with rfl | rfl
    · exact ⟨rfl, rfl, rfl, rfl, rfl, rfl, rfl, rfl, rfl, rfl, rfl, rfl, State.dirRead_settled rfl, rfl, rfl, rfl⟩
    · exact ⟨rfl, rfl, rfl, rfl, rfl, rfl, rfl, rfl, rfl, rfl, rfl, rfl, State.dirRead_settled rfl, rfl, rfl, rfl⟩
  case asleep => rw [State.interruptTaken, State.highTaken_of_hostInterrupt rfl, State.lowTaken_of_sleeping rfl, Bool.or_self]
  case woken =>
    intro h
    simp [State.highTaken, State.coldStart, h]
  case awake => rw [State.interruptTaken, State.highTaken_of_hostInterrupt rfl, State.lowTaken_of_imr_zero rfl, Bool.or_self]

end Sys2Proof.Machine
end

section
/-!
Memory accesses, the loads and stores at an effective address, and the jumps (R104 to R121, R200 to R228, R245 to R259, R611, R620 to R622).
-/

namespace Sys2Proof.Machine

/-! ### Frames -/

/-- States that agree on every register have the same register file. -/
theorem State.regs_ext {s t : State} (h : ∀ k : Reg, t.reg k = s.reg k) : t.regs = s.regs :=
  Vector.ext fun k hk => h ⟨k, hk⟩

theorem State.onlyRegs_refl (s : State) (rs : List Reg) : s.onlyRegs s rs := ⟨fun _ _ => rfl, fun _ => rfl, rfl⟩

theorem State.onlyRegs.setReg {s t : State} {rs : List Reg} (h : s.onlyRegs t rs) {r : Reg} (hr : r ∈ rs) (v : Word) :
    s.onlyRegs (t.setReg r v) rs := by
  obtain ⟨hreg, hmem, hrest⟩ := h
  refine ⟨fun k hk => ?_, hmem, ?_⟩
  · rw [State.reg_setReg_of_ne _ _ (ne_of_mem_of_not_mem hr hk).symm, hreg k hk]
  · rw [hrest]
    rfl

theorem State.onlyStore_writeWord {s : State} (h : s.Inv) (p : Nat) (v : Word) (rs : List Reg) :
    s.onlyStore { s with mem := Memory.writeWord s.mem p v } p v rs :=
  ⟨Memory.readWord_writeWord_self h.memory p v, fun _ => Memory.readByte_writeWord _ v, fun _ _ => rfl, rfl⟩

theorem State.onlyStore.setReg {s t : State} {p : Nat} {v : Word} {rs : List Reg} (h : s.onlyStore t p v rs) {r : Reg} (hr : r ∈ rs)
    (x : Word) : s.onlyStore (t.setReg r x) p v rs := by
  obtain ⟨hword, hmem, hreg, hrest⟩ := h
  refine ⟨hword, hmem, fun k hk => ?_, ?_⟩
  · rw [State.reg_setReg_of_ne _ _ (ne_of_mem_of_not_mem hr hk).symm, hreg k hk]
  · rw [hrest]
    rfl

/-! ### Accesses (R110, R111, R116, R120, R121) -/

/-- A read checks relocation and bounds, existence and parity, in this order (D7). -/
theorem State.memRead_eq (s : State) (a : Word) : s.memRead a =
    match s.physical a with
    | .error c => .error c
    | .ok p => if p ∈ s.params.parityBad then .error .parity else .ok (Memory.readWord s.mem p) := rfl

/-- Settles O14. -/
theorem memoryAccessesCheckInOrder : Obligations.MemoryAccessesCheckInOrder := by
  refine ⟨?read, ?write⟩
  case read =>
    intro s a p hp
    cases hm : s.mode with
    | executive =>
      have hpa : p = a := by simpa [hm] using hp
      rw [State.memRead, State.physical_executive hm, hpa]
      by_cases hs : a.toNat < s.params.memSize
      · simp [hs]
      · simp [hs]
    | user =>
      have hpa : p = relocate s.params.relocation s.bar a := by simpa [hm] using hp
      rw [State.memRead, State.physical_user hm, ← hpa]
      by_cases hb : fieldAt s.protection 16 23 ≤ p.toNat / 512 ∧ p.toNat / 512 ≤ fieldAt s.protection 8 15
      · by_cases hs : p.toNat < s.params.memSize
        · simp [inBounds, hb, hs]
        · simp [inBounds, hb, hs]
      · simp [inBounds, hb]
  case write =>
    intro s a v p h hp
    exact ⟨_, State.memWrite_eq_ok.mpr ⟨p, hp, rfl⟩, State.onlyStore_writeWord h p v [], rfl, elementary_inv.mem _ _ _ h⟩

/-! ### The effective address (R104, R105) -/

/-- The address in the page of PC (R105). -/
theorem toNat_page (pc : Word) (addr : BitVec 16) : (pc.extractLsb' 16 8 ++ addr).toNat = pc.toNat / 65536 * 65536 + addr.toNat := by
  have hpc := pc.isLt
  rw [BitVec.toNat_append, ← Nat.shiftLeft_add_eq_or_of_lt addr.isLt, BitVec.extractLsb'_toNat, Nat.shiftLeft_eq,
    Nat.shiftRight_eq_div_pow]
  omega

theorem page_eq {pc d : Word} {addr : BitVec 16} (hd : d.toNat = pc.toNat / 65536 * 65536 + addr.toNat) :
    pc.extractLsb' 16 8 ++ addr = d :=
  BitVec.eq_of_toNat_eq ((toNat_page pc addr).trans hd.symm)

/-- Settles O13. -/
theorem effectiveAddressOfThePagedForms : Obligations.EffectiveAddressOfThePagedForms := by
  intro s x addr d hd
  have index (a : Word) : (if x then a + s.reg Reg.ir else a).toNat = (a.toNat + (if x then (s.reg Reg.ir).toNat else 0)) % 16777216 := by
    cases x
    · simp [Nat.mod_eq_of_lt a.isLt]
    · exact BitVec.toNat_add _ _
  refine ⟨⟨_, ?direct, index d⟩, fun q hq => ⟨_, ?indirect, index q⟩, fun c hc => ?error⟩
  all_goals simp only [State.ea, page_eq hd]
  case direct => rfl
  case indirect => simp only [hq]; rfl
  case error => simp only [hc]; rfl

/-! ### LO, ST and the immediate loads that skip (R200, R201, R206, R207) -/

/-- Settles O15. -/
theorem loadAndStoreAtTheEffectiveAddress : Obligations.LoadAndStoreAtTheEffectiveAddress := by
  rintro s _ i r addr e he rfl
  refine ⟨fun v hv => ?load, fun p h hp => ?store⟩
  case load =>
    refine ⟨_, congrArg Host.Outcome.next ((State.withEA_ok he _).trans (State.withRead_ok hv _)), State.reg_setReg_self _ _ _, ?_,
      State.onlyRegs_setReg _ _ _⟩
    simp
  case store =>
    have hx : exec (.st i r addr) s = .next _ := congrArg Host.Outcome.next ((State.withEA_ok he _).trans (State.withWrite_ok hp _))
    refine ⟨_, hx, s.afterEA_pc i, ?_⟩
    rw [State.reg_afterEA]
    exact State.onlyStore_writeWord (elementary_inv.afterEA h i) _ _ _

/-- Settles O17. -/
theorem immediateLoadsThatSkip : Obligations.ImmediateLoadsThatSkip := by
  intro s r n
  have hz : zext n = 0 ↔ n.toNat = 0 := by rw [← BitVec.toNat_inj, toNat_zext]; rfl
  have hm : 0 - zext n = 0 ↔ n.toNat = 0 := by
    rw [← BitVec.toInt_inj, toInt_zero_sub_zext]
    simp
  refine ⟨⟨_, rfl, ?_, ?_, (State.onlyRegs_setReg _ _ _).skipIf _⟩, ⟨_, rfl, ?_, ?_, (State.onlyRegs_setReg _ _ _).skipIf _⟩⟩
  · rw [State.reg_skipIf, State.reg_setReg_self, toNat_zext]
  · simp only [State.skipIf_pc, decide_eq_true_eq, hz]; rfl
  · rw [State.reg_skipIf, State.reg_setReg_self, toInt_zero_sub_zext]
  · simp only [State.skipIf_pc, decide_eq_true_eq, hm]; rfl

/-! ### The end of a jump (R237, R621, R622) -/

section

variable (s : State)

@[simp] theorem State.completeJump_regs : s.completeJump.regs = s.regs := by rw [s.completeJump_frame]
@[simp] theorem State.completeJump_pc : s.completeJump.pc = s.pc := by rw [s.completeJump_frame]
@[simp] theorem State.completeJump_mem : s.completeJump.mem = s.mem := by rw [s.completeJump_frame]
@[simp] theorem State.reg_completeJump (k : Reg) : s.completeJump.reg k = s.reg k := State.reg_congr s.completeJump_regs k

end

/-- Under ION_CLEARS = both an enable clears both locks (R621, D30). -/
theorem State.unlock_both {s : State} (h : s.params.ionInnermost = false) : s.unlock = { s with lockLo := false, lockHi := false } := by
  simp [State.unlock, h]

/-- The end of a jump, from a state that differs from `s` in registers, PC and memory alone. -/
theorem State.jumpEnds_completeJump {s t : State} (h : t = { s with regs := t.regs, pc := t.pc, mem := t.mem }) :
    s.jumpEnds t.completeJump ∧ s.sameBesideJump t.completeJump := by
  rw [t.completeJump_eq]
  refine ⟨⟨?mode, rfl, rfl, fun hp => ?locks⟩, ?same⟩
  case mode => rw [h]
  case locks =>
    have hu := State.unlock_both (s := t) (by rw [h]; exact hp)
    rw [hu, h]
    cases s.pendIon <;> simp
  case same => rw [h]; rfl

/-- Settles O18. -/
theorem jumpsGoToTheirTarget : Obligations.JumpsGoToTheirTarget := by
  refine ⟨?j, fun s r n => ?regj⟩
  case j =>
    rintro s _ i x addr e he rfl
    have hx : exec (.j i x addr) s = .next _ := congrArg Host.Outcome.next (State.withEA_ok he _)
    exact ⟨_, hx, State.completeJump_pc _, (State.completeJump_regs _).trans (s.afterEA_regs i), State.completeJump_mem _,
      State.jumpEnds_completeJump rfl⟩
  case regj =>
    refine ⟨_, rfl, ?_, State.completeJump_regs _, State.completeJump_mem _, State.jumpEnds_completeJump rfl⟩
    rw [State.completeJump_pc, State.setPc_pc, BitVec.toNat_add, toNat_zext]

/-! ### The return stack (R220, R221) -/

/-- The state a push of the return stack leads to (R220). -/
def State.pushedPc (s : State) (p : Nat) : State :=
  (({ s with mem := Memory.writeWord s.mem p (s.reg Reg.tos) } : State).setReg Reg.sp (s.reg Reg.sp - 1)).setReg Reg.tos s.pc

section

variable (s : State) (p : Nat)

theorem State.pushedPc_frame : s.pushedPc p = { s with regs := (s.pushedPc p).regs, mem := (s.pushedPc p).mem } := rfl

theorem State.reg_pushedPc (k : Reg) :
    (s.pushedPc p).reg k = if k = Reg.tos then s.pc else if k = Reg.sp then s.reg Reg.sp - 1 else s.reg k := by
  rw [State.pushedPc, State.reg_setReg, State.reg_setReg]
  rfl

theorem State.pushedPc_mem : (s.pushedPc p).mem = Memory.writeWord s.mem p (s.reg Reg.tos) := rfl

end

/-- What a jump to `target` after a push of the return stack leaves (R220, R223, R225). -/
theorem State.pushedPc_jump {s : State} (h : s.Inv) (p : Nat) (target : Word) :
    let t := ((s.pushedPc p).setPc target).completeJump
    t.pc = target ∧ t.reg Reg.sp = s.reg Reg.sp - 1 ∧ t.reg Reg.tos = s.pc ∧
      (∀ k, k ≠ Reg.sp → k ≠ Reg.tos → t.reg k = s.reg k) ∧ Memory.readWord t.mem p = s.reg Reg.tos ∧
      (∀ a, a < 3 * p ∨ 3 * p + 3 ≤ a → Memory.readByte t.mem a = Memory.readByte s.mem a) ∧
      s.jumpEnds t ∧ s.sameBesideJump t := by
  intro t
  have hreg (k : Reg) : t.reg k = if k = Reg.tos then s.pc else if k = Reg.sp then s.reg Reg.sp - 1 else s.reg k := by
    rw [State.reg_completeJump, State.reg_setPc, State.reg_pushedPc]
  have hmem : t.mem = Memory.writeWord s.mem p (s.reg Reg.tos) := State.completeJump_mem _
  refine ⟨State.completeJump_pc _, hreg _, hreg _, fun k hs ht => ?_, ?_, fun a ha => ?_, State.jumpEnds_completeJump rfl⟩
  · rw [hreg, if_neg ht, if_neg hs]
  · rw [hmem, Memory.readWord_writeWord_self h.memory]
  · rw [hmem, Memory.readByte_writeWord _ _ ha]

/-- Settles O19. -/
theorem pushJumpsSaveTheReturnAddress : Obligations.PushJumpsSaveTheReturnAddress := by
  intro s p h hp
  refine ⟨?pushj, fun r n => ?regpj⟩
  case pushj =>
    rintro _ i x addr e he rfl
    have hx : exec (.pushj i x addr) s = .next (((s.afterEA i).pushedPc p).setPc e).completeJump := by
      refine congrArg Host.Outcome.next ((State.withEA_ok he _).trans (State.pushPc_ok ?_ _))
      rwa [State.physical_afterEA, State.reg_afterEA]
    have := State.pushedPc_jump (elementary_inv.afterEA h i) p e
    simp only [State.reg_afterEA, State.afterEA_pc] at this
    exact ⟨_, hx, this⟩
  case regpj =>
    have hx : exec (.regpj r n) s = .next ((s.pushedPc p).setPc ((s.pushedPc p).reg r + zext n)).completeJump :=
      congrArg Host.Outcome.next (State.pushPc_ok hp _)
    rw [State.reg_pushedPc] at hx
    refine ⟨_, hx, ?_⟩
    have := State.pushedPc_jump h p ((if r = Reg.tos then s.pc else if r = Reg.sp then s.reg Reg.sp - 1 else s.reg r) + zext n)
    exact this

/-- What a pop of the return stack after a jump to `target` leaves (R221, R226). -/
theorem State.popTo_spec {s : State} {v : Word} (hv : s.memRead (s.reg Reg.sp) = .ok v) (target : Word) :
    let t := s.popTo target
    t.pc = target ∧ t.reg Reg.tos = v ∧ t.reg Reg.sp = s.reg Reg.sp + 1 ∧ (∀ k, k ≠ Reg.sp → k ≠ Reg.tos → t.reg k = s.reg k) ∧
      (∀ a, Memory.readByte t.mem a = Memory.readByte s.mem a) ∧ s.jumpEnds t ∧ s.sameBesideJump t := by
  intro t
  have ht : t = (((s.setPc target).setReg Reg.tos v).setReg Reg.sp (s.reg Reg.sp + 1)).completeJump := State.popTo_ok hv target
  have hreg (k : Reg) : t.reg k = if k = Reg.sp then s.reg Reg.sp + 1 else if k = Reg.tos then v else s.reg k := by
    rw [ht, State.reg_completeJump, State.reg_setReg, State.reg_setReg, State.reg_setPc]
  refine ⟨by rw [ht, State.completeJump_pc]; rfl, hreg _, hreg _, fun k hs ht => ?_, fun a => by rw [ht, State.completeJump_mem]; rfl, ?_⟩
  · rw [hreg, if_neg hs, if_neg ht]
  · rw [ht]
    exact State.jumpEnds_completeJump rfl

/-- What each of the popping jumps answers (R226 to R228). -/
theorem exec_popJump {s : State} {i : Instr} {target : Word}
    (h : (∃ r n, i = .regjs r n ∧ target = s.reg r + zext n) ∨ (i = .popj ∧ target = s.reg Reg.tos) ∨
      (∃ n, i = .popjof n ∧ target = s.reg Reg.tos + zext n)) : exec i s = .next (s.popTo target) := by
  rcases h with ⟨r, n, rfl, rfl⟩ | ⟨rfl, rfl⟩ | ⟨n, rfl, rfl⟩ <;> rfl

/-- Settles O20. -/
theorem popJumpsReturn : Obligations.PopJumpsReturn := by
  refine ⟨fun s v hv i target hi => ⟨_, exec_popJump hi, State.popTo_spec hv target⟩, ?_⟩
  intro s i x addr e p h hpi hpu he hp hgood
  let t := ((s.afterEA i).pushedPc p).setPc e
  have hx : exec (.pushj i x addr) s = .next t := by
    refine congrArg Host.Outcome.next ((State.withEA_ok he _).trans ((State.pushPc_ok (p := p) ?_ _).trans ?_))
    · rwa [State.physical_afterEA, State.reg_afterEA]
    · exact State.completeJump_plain ((s.afterEA_pendIon i).trans hpi) ((s.afterEA_pendUser i).trans hpu)
  have hreg (k : Reg) : t.reg k = if k = Reg.tos then s.pc else if k = Reg.sp then s.reg Reg.sp - 1 else s.reg k := by
    simp only [t, State.reg_setPc, State.reg_pushedPc, State.reg_afterEA, State.afterEA_pc]
  have hphys (a : Word) : t.physical a = s.physical a := s.physical_afterEA i a
  have hread : t.memRead (t.reg Reg.sp) = .ok (s.reg Reg.tos) := by
    refine State.memRead_eq_ok.mpr ⟨p, by rw [hphys, hreg]; exact hp, (s.afterEA_params i).symm ▸ hgood, ?_⟩
    rw [← s.reg_afterEA i]
    exact Memory.readWord_writeWord_self (elementary_inv.afterEA h i).memory p _
  obtain ⟨hpc, htos, hsp, hrest, -⟩ := State.popTo_spec hread (t.reg Reg.tos)
  refine ⟨t, _, hx, rfl, hpc.trans (hreg _), State.regs_ext fun k => ?_⟩
  by_cases hks : k = Reg.sp
  · rw [hks]
    exact hsp.trans (by rw [hreg]; exact sub_add_cancel _ _)
  by_cases hkt : k = Reg.tos
  · rw [hkt]
    exact htos
  · exact (hrest k hks hkt).trans (by rw [hreg, if_neg hkt, if_neg hks])

/-! ### Pushes and pops (R245 to R259) -/

@[simp] theorem State.setReg_reg (s : State) (r : Reg) : s.setReg r (s.reg r) = s := by
  simp [State.setReg, State.reg]

/-- What a push leaves that steps its address register by `before` and by `after` the store at `p` (R245 to R247). -/
def State.pushed (s : State) (r1 r2 : Reg) (before after : Word) (p : Nat) : State :=
  ({ s with mem := Memory.writeWord s.mem p (if r1 = r2 then s.reg r2 + before else s.reg r1) } : State).setReg r2
    (s.reg r2 + before + after)

/-- What a pop leaves that steps its address register by `before` and by `after` the load of `v` (R245 to R247). -/
def State.popped (s : State) (r1 r2 : Reg) (before after v : Word) : State :=
  let t := (s.setReg r2 (s.reg r2 + before)).setReg r1 v
  t.setReg r2 (t.reg r2 + after)

/-- What each push answers (R250 to R254). -/
theorem exec_push {f : (Reg → Reg → Instr) × Word × Word} (hf : f ∈ pushRows) {s : State} {r1 r2 : Reg} {p : Nat}
    (hp : s.physical (s.reg r2 + f.2.1) = .ok p) : exec (f.1 r1 r2) s = .next (s.pushed r1 r2 f.2.1 f.2.2 p) := by
  have value : (if r1 = r2 then s.reg r2 else s.reg r1) = s.reg r1 := by
    rw [ite_eq_right_iff]
    rintro rfl
    rfl
  simp only [pushRows, List.mem_cons, List.not_mem_nil, or_false] at hf
  rcases hf with rfl | rfl | rfl | rfl | rfl
  case inl =>
    replace hp : s.physical (s.reg r2) = .ok p := add_zero (s.reg r2) ▸ hp
    simp only [State.pushed, add_zero, value]
    exact congrArg Host.Outcome.next ((State.withWrite_ok hp id).trans (State.setReg_reg _ r2).symm)
  case inr.inr.inl | inr.inr.inr.inr =>
    replace hp : s.physical (s.reg r2) = .ok p := add_zero (s.reg r2) ▸ hp
    simp only [State.pushed, add_zero, value]
    exact congrArg Host.Outcome.next (State.withWrite_ok hp _)
  all_goals
    simp only [State.pushed, add_zero]
    exact congrArg Host.Outcome.next (State.withWrite_ok hp _)

/-- What each pop answers (R255 to R259). -/
theorem exec_pop {f : (Reg → Reg → Instr) × Word × Word} (hf : f ∈ popRows) {s : State} {r1 r2 : Reg} {v : Word}
    (hv : s.memRead (s.reg r2 + f.2.1) = .ok v) : exec (f.1 r1 r2) s = .next (s.popped r1 r2 f.2.1 f.2.2 v) := by
  simp only [popRows, List.mem_cons, List.not_mem_nil, or_false] at hf
  rcases hf with rfl | rfl | rfl | rfl | rfl
  case inl | inr.inr.inl | inr.inr.inr.inr =>
    replace hv : s.memRead (s.reg r2) = .ok v := add_zero (s.reg r2) ▸ hv
    simp only [State.popped, add_zero, State.setReg_reg]
    exact congrArg Host.Outcome.next (State.withRead_ok hv _)
  all_goals
    simp only [State.popped, add_zero, State.setReg_reg]
    exact congrArg Host.Outcome.next (State.withRead_ok hv _)

theorem State.popped_spec (s : State) (r1 r2 : Reg) (before after v : Word) :
    let t := s.popped r1 r2 before after v
    t.pc = s.pc ∧ t.reg r1 = (if r1 = r2 then v + after else v) ∧ (r1 ≠ r2 → t.reg r2 = s.reg r2 + before + after) ∧
      s.onlyRegs t [r1, r2] := by
  refine ⟨rfl, ?_, fun h => ?_, (((s.onlyRegs_refl _).setReg (by simp) _).setReg (by simp) _).setReg (by simp) _⟩
  · by_cases h : r1 = r2 <;> simp [State.popped, h]
  · simp [State.popped, Ne.symm h]

/-- Settles O22: the transfer and the two steps of each row. -/
theorem pushesAndPopsMoveAndStep : Obligations.PushesAndPopsMoveAndStep := by
  refine ⟨?push, ?pop⟩
  case push =>
    intro f hf s r1 r2 p h hp
    exact ⟨_, exec_push hf hp, rfl, State.reg_setReg_self _ _ _,
      (State.onlyStore_writeWord h p _ [r2]).setReg (List.mem_singleton_self r2) _⟩
  case pop =>
    intro f hf s r1 r2 v hv
    exact ⟨_, exec_pop hf hv, s.popped_spec r1 r2 f.2.1 f.2.2 v⟩

/-! ### The return from a handler (R611) -/

/-- An IOT that the mode may issue takes the action of its code (R384). -/
theorem State.iot_of_action {s t : State} {r : Reg} {dev : BitVec 16} {d : Nat} (hd : deviceCode s.params.iotDevHighIgnored dev = d)
    (ht : s.iotAction r d = some t) (hm : s.mode = .executive ∨ userLegal d = true) : s.iot r dev = t := by
  simp only [State.iot, hd, ht, if_pos hm]

/-- Settles O35: the two IOTs leave only the pending bits, which the jump then ends. -/
theorem returnFromAnInterruptHandler : Obligations.ReturnFromAnInterruptHandler := by
  intro s v hm hion hv
  have code (b : Bool) (n : BitVec 16) (hn : n.toNat < 256) : deviceCode b n = n.toNat := by
    cases b
    · rfl
    · exact Nat.mod_eq_of_lt hn
  have ha : exec (.iot 0 7) s = .next { s with pendIon := true } :=
    congrArg Host.Outcome.next (State.iot_of_action (code _ _ (by decide)) rfl (.inl hm))
  have hb : exec (.iot 0 9) { s with pendIon := true } = .next { s with pendIon := true, pendUser := true } :=
    congrArg Host.Outcome.next (State.iot_of_action (code _ _ (by decide)) rfl (.inl hm))
  obtain ⟨hpc, htos, hsp, -, -, ⟨hmode, hpu, hpi, hlocks⟩, -⟩ :=
    State.popTo_spec (s := { s with pendIon := true, pendUser := true }) hv (s.reg Reg.tos)
  obtain ⟨hlo, hhi⟩ := hlocks hion
  exact ⟨_, _, _, ha, hb, rfl, hm, rfl, rfl, hmode, hlo.trans (Bool.and_false _), hhi.trans (Bool.and_false _), hpi, hpu, hpc, htos, hsp⟩

end Sys2Proof.Machine
end

section
/-!
Interrupts (R602, R606, R610 to R613): what requests one, and what its entry leaves at test points (A) and (B).
-/

namespace Sys2Proof.Machine

/-! ### Requests (R610) -/

theorem State.lowRequest_iff (v : State) : v.lowRequest = true ↔
    (∃ k ∈ [7, 18, 19, 20, 21, 22, 23], bitAt v.icr k = true ∧ bitAt v.imr k = true) ∨
      (v.protFF = true ∧ bitAt v.imr 7 = true) ∨ bitAt v.icr 6 = true ∨ bitAt v.icr 17 = true ∨
      (bitAt v.dir 7 = true ∧ bitAt v.dir 21 = true) := by
  simp only [State.lowRequest, Bool.or_eq_true, List.any_eq_true, Bool.and_eq_true, or_assoc]

theorem State.lowTaken_iff (v : State) : v.lowTaken = true ↔
    v.lowRequest = true ∧ bitAt v.imr v.params.imrLoBit = true ∧ v.lockLo = false ∧ v.sleeping = false := by
  simp only [State.lowTaken, Bool.and_eq_true, Bool.not_eq_true', and_assoc]

theorem State.highTaken_iff (v : State) : v.highTaken = true ↔
    v.hostInterrupt = true ∧ bitAt v.imr v.params.imrHiBit = true ∧ v.lockHi = false := by
  simp only [State.highTaken, Bool.and_eq_true, Bool.not_eq_true', and_assoc]

theorem State.interruptTaken_iff (v : State) : v.interruptTaken = true ↔ v.highTaken = true ∨ v.lowTaken = true := by
  simp only [State.interruptTaken, Bool.or_eq_true]

/-! ### Entry through a vector that holds PUSHJ (R610) -/

/-- The state after an interrupt was entered whose vector holds PUSHJ to `addr`. -/
def State.afterEntry (u : State) (high : Bool) (addr : BitVec 16) (p : Nat) : State :=
  ((u.entered high).pushedPc p).setPc (u.pc.extractLsb' 16 8 ++ addr)

section

variable {u : State} {high : Bool} {addr : BitVec 16} {p : Nat}

theorem State.canEnter.highTaken (h : u.canEnter high addr p) : u.highTaken = high := by
  obtain ⟨ht, -⟩ := h
  cases high
  · exact ht.1
  · exact ht

theorem State.canEnter.interruptTaken (h : u.canEnter high addr p) : u.interruptTaken = true := by
  obtain ⟨ht, -⟩ := h
  cases high
  · exact u.interruptTaken_iff.mpr (.inr ht.2)
  · exact u.interruptTaken_iff.mpr (.inl ht)

theorem State.canEnter.takeInterrupt (h : u.canEnter high addr p) (ht : u.turns = []) :
    u.takeInterrupt = u.afterEntry high addr p := by
  have hhigh := h.highTaken
  obtain ⟨-, hvec, rfl, hp⟩ := h
  have hpush : (u.entered high).physical ((u.entered high).reg Reg.sp - 1) = .ok (u.reg Reg.sp - 1).toNat :=
    (State.physical_executive rfl _).trans (if_pos hp)
  have hexec : exec (.pushj false false addr) (u.entered high) = .next (u.afterEntry high addr (u.reg Reg.sp - 1).toNat) :=
    congrArg Host.Outcome.next
      ((State.withEA_ok rfl _).trans ((State.pushPc_ok hpush _).trans (State.completeJump_plain rfl rfl)))
  unfold State.takeInterrupt State.enter
  rw [hhigh, State.vector, hvec]
  dsimp only
  rw [State.afterFetch_nil (s := u.entered high) ht,
    State.runWord_ok (decodeReadsEncodeBack (.pushj false false addr) _ rfl), hexec]
  rfl

theorem State.enteredFrom_afterEntry (h : u.Inv) (hr : u.raised = false) :
    u.enteredFrom (u.afterEntry high addr p) high addr p := by
  have hreg (k : Reg) : (u.afterEntry high addr p).reg k = if k = Reg.tos then u.pc else if k = Reg.sp then u.reg Reg.sp - 1 else u.reg k := by
    rw [State.afterEntry, State.reg_setPc, State.reg_pushedPc]
    rfl
  refine ⟨toNat_page _ _, hreg _, hreg _, fun k hs ht => by rw [hreg, if_neg ht, if_neg hs], ?_, fun a ha => ?_, rfl, rfl, rfl, rfl, rfl, rfl, rfl,
    rfl, ?_⟩
  · exact Memory.readWord_writeWord_self h.memory p _
  · exact Memory.readByte_writeWord _ _ ha
  · rw [hr]
    rfl

/-- Test point (B) after which nothing is raised any more takes one interrupt. -/
theorem State.testB_enters {x : State} (hr : x.raised = true) (ht : x.turns = [])
    (h : State.canEnter { x with raised := false } high addr p) :
    State.testB 2 x = State.afterEntry { x with raised := false } high addr p := by
  rw [State.testB_interrupt hr ht h.interruptTaken, h.takeInterrupt ht]
  exact State.testB_quiet rfl 1

end

/-- The cycle that an interrupt displaces saves the PC one past the displaced word, or as it stands asleep and in place of a word of XEQ or
REX (R236, R610, R635). -/
theorem State.cycleA_enters {u : State} {high : Bool} {addr : BitVec 16} {p : Nat} (ht : u.turns = []) (h : u.canEnter high addr p) :
    u.cycleA = State.afterEntry (if u.sleeping ∨ u.xw ≠ none then u else { u with pc := u.pc + 1 }) high addr p := by
  unfold State.cycleA
  split
  next hs =>
    have hh : u.highTaken = true := by
      have := u.interruptTaken_iff.mp h.interruptTaken
      rwa [State.lowTaken_of_sleeping hs, or_iff_left Bool.false_ne_true] at this
    rw [if_pos hh, if_pos (.inl hs), h.takeInterrupt ht]
  next hs =>
    split
    next w hx => rw [if_pos h.interruptTaken, if_pos (.inr (by simp [hx])), h.takeInterrupt ht]
    next hx =>
      rw [if_pos h.interruptTaken, if_neg (by simp [hs, hx])]
      exact State.canEnter.takeInterrupt (u := { u with pc := u.pc + 1 }) h ht

/-- Settles O33: test point (A) by the cycle that is displaced, test point (B) by what the instruction or the pipeline's output left. -/
theorem interruptEntrySavesThePc : Obligations.InterruptEntrySavesThePc := by
  refine ⟨fun v => ⟨v.lowRequest_iff, v.lowTaken_iff, v.highTaken_iff, v.interruptTaken_iff⟩, ?_⟩
  intro s u high addr p hin hu hinv
  obtain rfl : u = s.ready := hu
  have ht := s.ready_turns
  refine ⟨fun h => ?pointA, fun w i x hi hs hw hd hr h => ?pointB⟩
  case pointA =>
    by_cases hr : (State.settle { s with turns := [] }).raised = true
    · refine ⟨s.ready.afterEntry high addr p, ?_, ?_⟩
      · rw [step_idle hin, State.idle_interrupt hr h.interruptTaken, State.testB_enters hr ht h]
        rfl
      · rw [if_pos (.inr (.inr hr))]
        exact State.enteredFrom_afterEntry hinv rfl
    · rw [Bool.not_eq_true] at hr
      refine ⟨State.afterEntry (if s.ready.sleeping ∨ s.ready.xw ≠ none then s.ready else { s.ready with pc := s.ready.pc + 1 }) high addr p,
        ?_, ?_⟩
      · rw [step_idle hin, State.idle_cycle (.inl hr)]
        exact congrArg Host.Outcome.next
          ((congrArg (State.testB 2) (State.cycleA_enters ht h)).trans (State.testB_quiet rfl 2))
      · simp only [hr, Bool.false_eq_true, or_false]
        split
        · exact State.enteredFrom_afterEntry hinv rfl
        · exact State.enteredFrom_afterEntry (u := { s.ready with pc := s.ready.pc + 1 }) ⟨hinv.memory, hinv.settledBit⟩ rfl
  case pointB =>
    have hstep := step_of_no_interrupt hin hi
    have hx : s.ready.cycleA = x ∧ x.turns = [] ∧ x.Inv := by
      rcases hw with ⟨hx, hw, hex⟩ | ⟨hx, hex⟩
      · refine ⟨?_, turns_of_exec (s := { s.ready with pc := s.ready.pc + 1 }) ht hex, ?_⟩
        · rw [State.cycleA_fetch hs hx hi, State.fetchAndRun_ok hw hd, State.afterFetch_nil (s := s.ready.setPc (s.ready.pc + 1)) ht]
          exact congrArg (outcomeState _) hex
        · have := State.Inv.exec (s := { s.ready with pc := s.ready.pc + 1 }) ⟨hinv.memory, hinv.settledBit⟩ i
          rwa [hex] at this
      · refine ⟨?_, turns_of_exec (s := { s.ready with xw := none }) ht hex, ?_⟩
        · rw [State.cycleA_xw hs hx hi, State.runWord_ok (s := { s.ready with xw := none }) hd, hex]
          rfl
        · have := State.Inv.exec (s := { s.ready with xw := none }) ⟨hinv.memory, hinv.settledBit⟩ i
          rwa [hex] at this
    obtain ⟨hcycle, hxt, hxi⟩ := hx
    rw [hcycle, State.testB_enters hr hxt h] at hstep
    exact ⟨_, hstep, State.enteredFrom_afterEntry ⟨hxi.memory, hxi.settledBit⟩ rfl⟩

/-! ### Output of the pipeline (R127) -/

/-- A word written, with WP and WC stepped: `s1` is what the write, or its failure, left. -/
def State.outputCounted (s1 : State) : State :=
  let s2 := (s1.setReg Reg.wp (s1.reg Reg.wp + 1)).setReg Reg.wc (s1.reg Reg.wc + 1)
  if s1.reg Reg.wc + 1 = 0 then s2.raise .writeCount else s2

theorem State.outputCounted_reg (s1 : State) (k : Reg) : s1.outputCounted.reg k =
    if k = Reg.wc then s1.reg Reg.wc + 1 else if k = Reg.wp then s1.reg Reg.wp + 1 else s1.reg k := by
  unfold State.outputCounted
  dsimp only
  split <;> simp only [State.reg_raise, State.reg_setReg]

theorem State.raise_writeCount (s : State) : s.raise .writeCount = { s with icr := (s.raise .writeCount).icr, raised := true } := by
  simp [State.raise, State.record]

theorem State.outputCounted_frame (s1 : State) : s1.outputCounted =
    { s1 with regs := s1.outputCounted.regs, icr := s1.outputCounted.icr, raised := s1.outputCounted.raised } := by
  unfold State.outputCounted
  dsimp only
  split
  · exact (State.raise_writeCount _).trans rfl
  · rfl

theorem State.outputCounted_raised (s1 : State) : s1.outputCounted.raised = (s1.raised || decide (s1.reg Reg.wc + 1 = 0)) := by
  unfold State.outputCounted
  dsimp only
  split
  next h => rw [decide_eq_true h, Bool.or_true]; rfl
  next h => rw [decide_eq_false h, Bool.or_false]; rfl

theorem State.bitAt_outputCounted_icr (s1 : State) (k : Nat) : bitAt s1.outputCounted.icr k =
    (bitAt s1.icr k || (decide (s1.reg Reg.wc + 1 = 0) && decide (k = 21))) := by
  unfold State.outputCounted
  dsimp only
  split
  next h => rw [decide_eq_true h, Bool.true_and]; exact bitAt_record_icr _ .writeCount k
  next h => rw [decide_eq_false h, Bool.false_and, Bool.or_false]; rfl

theorem State.outputWord_eq {s : State} (v : Word) (h : s.params.wcStopsOutput = false ∨ s.reg Reg.wc ≠ 0) :
    s.outputWord v = State.outputCounted (match s.memWrite (s.reg Reg.wp) v with
      | .ok t => t
      | .error c => s.raise c) := by
  have hgo : ¬ (s.params.wcStopsOutput && decide (s.reg Reg.wc = 0)) = true := by
    simpa [← Bool.not_eq_true, ← not_and_or] using h
  rw [State.outputWord, if_neg hgo]
  unfold State.outputCounted
  dsimp only
  rw [State.reg_setReg, if_pos rfl] <;> rfl

/-- Settles O37: with the translation of WP, that a good one writes the word and a failing one records its condition, before both registers
step. -/
theorem outputWordsGoThroughTheWritePointer : Obligations.OutputWordsGoThroughTheWritePointer := by
  rintro s _ v h rfl
  refine ⟨fun _ => rfl, fun hp hw => ?_, fun hgo => ?_⟩
  · rw [State.outputWord, if_pos (by simp [hp, hw])]
  · rw [State.outputWord_eq v hgo]
    have hregs (s1 : State) (h1 : s1.regs = s.regs) :
        s1.outputCounted.reg Reg.wp = s.reg Reg.wp + 1 ∧ s1.outputCounted.reg Reg.wc = s.reg Reg.wc + 1 ∧
          ∀ k, k ≠ Reg.wp → k ≠ Reg.wc → s1.outputCounted.reg k = s.reg k := by
      have hr (k : Reg) : s1.reg k = s.reg k := by rw [State.reg, h1, State.reg]
      simp only [State.outputCounted_reg, hr]
      exact ⟨rfl, rfl, fun k hp hc => by rw [if_neg hc, if_neg hp]⟩
    cases hq : s.physical (s.reg Reg.wp) with
    | ok p =>
      rw [State.memWrite_eq_ok.mpr ⟨p, hq, rfl⟩]
      have hf := State.outputCounted_frame { s with mem := Memory.writeWord s.mem p v }
      obtain ⟨h1, h2, h3⟩ := hregs { s with mem := Memory.writeWord s.mem p v } rfl
      refine ⟨by rw [hf], h1, h2, h3, ?_, fun _ hc => by simp at hc⟩
      rintro p' ⟨⟩
      dsimp only
      rw [hf]
      exact ⟨Memory.readWord_writeWord_self h.memory p v, fun a ha => Memory.readByte_writeWord _ _ ha,
        State.bitAt_outputCounted_icr _, rfl, State.outputCounted_raised _⟩
    | error c =>
      rw [State.memWrite_eq_error.mpr hq]
      have hf := State.outputCounted_frame (s.raise c)
      obtain ⟨h1, h2, h3⟩ := hregs (s.raise c) rfl
      refine ⟨by dsimp only; rw [hf]; cases c <;> rfl, h1, h2, h3, fun _ hc => by simp at hc, ?_⟩
      rintro c' ⟨⟩
      refine ⟨by dsimp only; rw [hf]; rfl, (State.outputCounted_raised _).trans rfl, fun k => ?_,
        by dsimp only; rw [hf]; cases c <;> simp [State.raise, State.record]⟩
      exact (State.bitAt_outputCounted_icr _ k).trans (congrArg (· || _) (bitAt_record_icr s c k))

end Sys2Proof.Machine
end

section
/-!
Additions and subtractions, unary instructions, shifts, masks and bits (R270 to R281, R309 to R316, R330, R340 to R368): the Overflow condition
as an exact result that does not fit, the effect each group of instructions shares, and the statements.
-/

namespace Sys2Proof.Machine

/-! ### The Overflow condition (R273, R607) -/

theorem State.onlyRegs.raiseIf_overflow {s u : State} {rs : List Reg} (h : s.onlyRegs u rs) (o : Bool) :
    s.onlyRegsOverflow (u.raiseIf o .overflow) rs o := by
  obtain ⟨hreg, hmem, hframe⟩ := h
  rw [hframe]
  cases o with
  | false => exact ⟨hreg, fun _ => rfl, fun k => by simp [State.raiseIf], by simp [State.raiseIf], rfl⟩
  | true =>
    refine ⟨hreg, fun _ => rfl, fun k => ?_, by simp [State.raiseIf, State.raise], by simp [State.raiseIf, State.raise, State.record]⟩
    rw [Bool.true_and]
    exact bitAt_record_icr _ .overflow k

/-- A number brought to 24 bits is itself just if it fits. -/
theorem decide_bmod_ne_24 (x : Int) : decide (x.bmod 16777216 ≠ x) = !fits24 x := by
  rw [fits24, ← decide_not, decide_eq_decide, Int.bmod]
  split <;> omega

/-- A number brought to 48 bits is itself just if it fits. -/
theorem decide_bmod_ne_48 (x : Int) : decide (x.bmod 281474976710656 ≠ x) = !fits48 x := by
  rw [fits48, ← decide_not, decide_eq_decide, Int.bmod]
  split <;> omega

theorem addOverflow_eq (a b : Word) : addOverflow a b = !fits24 (a.toInt + b.toInt) := by
  rw [addOverflow, BitVec.toInt_add, ← decide_bmod_ne_24]

theorem subOverflow_eq (a b : Word) : subOverflow a b = !fits24 (a.toInt - b.toInt) := by
  rw [subOverflow, BitVec.toInt_sub, ← decide_bmod_ne_24]

/-- The signed value of a left shift is the product by 2^b, brought to the width. -/
theorem toInt_shiftLeft_eq {w : Nat} (v : BitVec w) (b : Nat) : (v <<< b).toInt = (v.toInt * 2 ^ b).bmod (2 ^ w) := by
  rw [BitVec.toInt_shiftLeft, Nat.shiftLeft_eq, BitVec.toInt_eq_toNat_bmod v, Int.bmod_mul_bmod]
  push_cast
  rfl

theorem shiftOverflow_eq (v : Word) (b : Nat) : shiftOverflow v b = !fits24 (v.toInt * 2 ^ b) := by
  rw [shiftOverflow, toInt_shiftLeft_eq, ← decide_bmod_ne_24]
  rfl

theorem shiftOverflow48_eq (v : BitVec 48) (b : Nat) : shiftOverflow48 v b = !fits48 (v.toInt * 2 ^ b) := by
  rw [shiftOverflow48, toInt_shiftLeft_eq, ← decide_bmod_ne_48]
  rfl

/-! ### Additions and subtractions (R274 to R281) -/

/-- A register written, a skip, and Overflow if `o`. -/
theorem State.setReg_skipIf_raiseIf (s : State) (r : Reg) (v : Word) (c o : Bool) :
    ((((s.setReg r v).skipIf c).raiseIf o .overflow).reg r = v) ∧
    ((((s.setReg r v).skipIf c).raiseIf o .overflow).pc = if c then s.pc + 1 else s.pc) ∧
    s.onlyRegsOverflow (((s.setReg r v).skipIf c).raiseIf o .overflow) [r] o :=
  ⟨by simp, by simp, ((s.onlyRegs_setReg r v).skipIf c).raiseIf_overflow o⟩

theorem exists_next_of_addTo {i : Instr} {s : State} {r1 : Reg} {b : Word} {skips : Bool} (h : exec i s = .next (s.addTo r1 b skips)) :
    ∃ t, exec i s = .next t ∧ (t.reg r1).toNat = ((s.reg r1).toNat + b.toNat) % 16777216 ∧
      t.pc = (if skips ∧ (s.reg r1).toNat + b.toNat < 16777216 then s.pc + 1 else s.pc) ∧
      s.onlyRegsOverflow t [r1] (!fits24 ((s.reg r1).toInt + b.toInt)) := by
  obtain ⟨hreg, hpc, honly⟩ :=
    s.setReg_skipIf_raiseIf r1 (s.reg r1 + b) (skips && !carryOut (s.reg r1) b) (addOverflow (s.reg r1) b)
  refine ⟨_, h, (congrArg BitVec.toNat hreg).trans (BitVec.toNat_add ..), hpc.trans ?_, addOverflow_eq (s.reg r1) b ▸ honly⟩
  simp [carryOut]

theorem exists_next_of_subFrom {i : Instr} {s : State} {r1 : Reg} {b : Word} {skips : Bool} (h : exec i s = .next (s.subFrom r1 b skips)) :
    ∃ t, exec i s = .next t ∧ (t.reg r1).toNat = ((s.reg r1).toNat + 16777216 - b.toNat) % 16777216 ∧
      t.pc = (if skips ∧ b.toNat ≤ (s.reg r1).toNat then s.pc + 1 else s.pc) ∧
      s.onlyRegsOverflow t [r1] (!fits24 ((s.reg r1).toInt - b.toInt)) := by
  obtain ⟨hreg, hpc, honly⟩ :=
    s.setReg_skipIf_raiseIf r1 (s.reg r1 - b) (skips && !borrow (s.reg r1) b) (subOverflow (s.reg r1) b)
  refine ⟨_, h, (congrArg BitVec.toNat hreg).trans ?_, hpc.trans ?_, subOverflow_eq (s.reg r1) b ▸ honly⟩
  · rw [BitVec.toNat_sub]
    have := b.isLt
    omega
  · simp [borrow]

/-- Settles O23: each instruction is an addition to, or a subtraction from, its register. -/
theorem arithmeticDepositsSkipsAndOverflows : Obligations.ArithmeticDepositsSkipsAndOverflows := by
  intro s r1
  simp only [List.forall_mem_cons, -eq_self]
  refine ⟨⟨?add, ?addnc, ?addi, ?addinc, List.forall_mem_nil _⟩, ⟨?sub, ?subnb, ?subi, ?subinb, List.forall_mem_nil _⟩⟩
  all_goals rintro r2 n _ rfl
  case add | addnc | addi | addinc => exact exists_next_of_addTo rfl
  case sub | subnb | subi | subinb => exact exists_next_of_subFrom rfl

/-! ### Unary instructions (R308 to R316, R330) -/

/-- The relations in the order of `unaryConditions`. -/
def relations : List Relation := [.never, .eq, .gt, .ge, .lt, .le, .ne, .always]

/-- What a relation says of a signed number. -/
def Relation.condition : Relation → Int → Bool
  | .never => fun _ => false
  | .eq => fun v => decide (v = 0)
  | .gt => fun v => decide (0 < v)
  | .ge => fun v => decide (0 ≤ v)
  | .lt => fun v => decide (v < 0)
  | .le => fun v => decide (v ≤ 0)
  | .ne => fun v => decide (v ≠ 0)
  | .always => fun _ => true

theorem unaryConditions_eq : unaryConditions = relations.map Relation.condition := rfl

theorem bitAt_zero_eq (v : Word) : bitAt v 0 = decide (v.toInt < 0) := by
  rw [bitAt, ← BitVec.msb_eq_getMsbD_zero, BitVec.msb_eq_toInt]

theorem Relation.holds_eq (k : Relation) (v : Word) : k.holds v = k.condition v.toInt := by
  have hzero : decide (v = 0) = decide (v.toInt = 0) := by
    rw [decide_eq_decide, ← BitVec.toInt_inj]
    rfl
  have hnot : decide (v ≠ 0) = !decide (v = 0) := decide_not
  simp only [Relation.holds, bitAt_zero_eq, hnot, hzero]
  rcases lt_trichotomy v.toInt 0 with h | h | h
  · cases k <;> simp [Relation.bits, Relation.condition, h, h.le, h.ne, not_lt_of_ge]
  · cases k <;> simp [Relation.bits, Relation.condition, h]
  · cases k <;> simp [Relation.bits, Relation.condition, h, h.le, h.ne', h.not_gt]

/-- A row of forms is the row of an operation: what its forms execute, the result as a number, and the overflow as an exact result that does
not fit. -/
structure UnaryOp.IsRow (op : UnaryOp) (row : UnaryRow) : Prop where
  exec_forms : ∀ (s : State) (r : Reg), row.forms.map (fun i => exec (i r) s) = relations.map fun k => .next (s.unary op k r)
  result : ∀ v sw : Word, (op.result v sw).toNat = row.result v.toNat sw.toNat
  overflow : ∀ v : Word, op.overflow v = !fits24 (row.exact v.toInt)

theorem toNat_zero_sub (v : Word) : (0 - v).toNat = (16777216 - v.toNat) % 16777216 := by
  rw [BitVec.toNat_sub]
  rfl

theorem subOverflow_zero (v : Word) : subOverflow 0 v = !fits24 (-v.toInt) := by
  rw [subOverflow_eq]
  simp

section

variable (v sw : Word)

theorem toNat_result_dec : (UnaryOp.dec.result v sw).toNat = (v.toNat + 16777215) % 16777216 := by
  rw [UnaryOp.result, BitVec.toNat_sub, add_comm]
  rfl

theorem toNat_result_com : (UnaryOp.com.result v sw).toNat = 16777215 - v.toNat := BitVec.toNat_not

theorem toNat_result_abv :
    (UnaryOp.abv.result v sw).toNat = if 8388608 ≤ v.toNat then (16777216 - v.toNat) % 16777216 else v.toNat := by
  have hsign : bitAt v 0 = true ↔ 8388608 ≤ v.toNat := by
    rw [bitAt_zero_eq, decide_eq_true_eq, BitVec.toInt_eq_toNat_cond]
    have := v.isLt
    split <;> omega
  rw [UnaryOp.result, apply_ite BitVec.toNat, toNat_zero_sub]
  simp only [hsign]

theorem overflow_abv : UnaryOp.abv.overflow v = !fits24 (if v.toInt < 0 then -v.toInt else v.toInt) := by
  rw [UnaryOp.overflow, subOverflow_zero, bitAt_zero_eq]
  by_cases h : v.toInt < 0
  · simp [h]
  · have := BitVec.toInt_lt (x := v)
    simp [h, fits24]
    omega

end

theorem unaryRows_isRow : ∀ row ∈ unaryRows, ∃ op : UnaryOp, op.IsRow row := by
  simp only [unaryRows, List.forall_mem_cons]
  refine ⟨⟨.dec, fun _ _ => rfl, fun v sw => toNat_result_dec v sw, fun v => subOverflow_eq v 1⟩,
    ⟨.inc, fun _ _ => rfl, fun v _ => BitVec.toNat_add v 1, fun v => addOverflow_eq v 1⟩,
    ⟨.com, fun _ _ => rfl, fun v sw => toNat_result_com v sw, fun _ => rfl⟩,
    ⟨.neg, fun _ _ => rfl, fun v _ => toNat_zero_sub v, subOverflow_zero⟩,
    ⟨.tst, fun _ _ => rfl, fun _ _ => rfl, fun _ => rfl⟩,
    ⟨.zr, fun _ _ => rfl, fun _ _ => rfl, fun _ => rfl⟩,
    ⟨.abv, fun _ _ => rfl, fun v sw => toNat_result_abv v sw, overflow_abv⟩,
    ⟨.slo, fun _ _ => rfl, fun _ _ => rfl, fun _ => rfl⟩, List.forall_mem_nil _⟩

/-- A form of a row, with its condition, is the operation of the row with a relation of that condition. -/
theorem UnaryOp.IsRow.exec_form {op : UnaryOp} {row : UnaryRow} (h : op.IsRow row) {f : (Reg → Instr) × (Int → Bool)}
    (hf : f ∈ row.forms.zip unaryConditions) (s : State) (r : Reg) :
    ∃ k : Relation, k.condition = f.2 ∧ exec (f.1 r) s = .next (s.unary op k r) := by
  rw [unaryConditions_eq, List.zip_map_right, List.mem_map] at hf
  obtain ⟨⟨i, k⟩, hik, rfl⟩ := hf
  have hall : List.Forall₂ (fun i k => exec (i r) s = .next (s.unary op k r)) row.forms relations := by
    have := h.exec_forms s r
    rwa [← List.forall₂_eq_eq_eq, List.forall₂_map_left_iff, List.forall₂_map_right_iff] at this
  exact ⟨k, rfl, (List.forall₂_iff_zip.mp hall).2 hik⟩

/-- Settles O26: each form is one of the eight operations with one of the eight relations. -/
theorem unaryInstructionsOperateThenTest : Obligations.UnaryInstructionsOperateThenTest := by
  refine ⟨fun row hrow f hf s r => ?_, fun _ => rfl⟩
  obtain ⟨op, hop⟩ := unaryRows_isRow row hrow
  obtain ⟨k, hk, hexec⟩ := hop.exec_form hf s r
  obtain ⟨hreg, hpc, honly⟩ := s.setReg_skipIf_raiseIf r (op.result (s.reg r) s.switches) (k.holds (op.result (s.reg r) s.switches))
    (s.params.overflowUnary && op.overflow (s.reg r))
  refine ⟨_, hexec, (congrArg BitVec.toNat hreg).trans (hop.result _ _), hpc.trans ?_, hop.overflow (s.reg r) ▸ honly⟩
  rw [k.holds_eq, hk]
  exact congrArg (fun v : Word => if f.2 v.toInt then s.pc + 1 else s.pc) hreg.symm

/-! ### Shifts of one register (R343 to R346, R350, R351) -/

section

variable {i : Instr} {s : State} {r : Reg}

theorem exists_next_of_shiftReg {f : Word → Word} (h : exec i s = .next (s.shiftReg r f)) {P : Word → Prop} (hP : P (f (s.reg r))) :
    ∃ t, exec i s = .next t ∧ P (t.reg r) ∧ t.pc = s.pc ∧ s.onlyRegs t [r] :=
  ⟨_, h, by rwa [State.shiftReg, State.reg_setReg, if_pos rfl], rfl, s.onlyRegs_setReg r _⟩

theorem toInt_sshiftRight_eq {w : Nat} (v : BitVec w) (b : Nat) : (v.sshiftRight b).toInt = v.toInt / 2 ^ b := by
  rw [BitVec.toInt_sshiftRight, Int.shiftRight_eq_div_pow]
  push_cast
  rfl

theorem toNat_ushiftRight_eq {w : Nat} (v : BitVec w) (b : Nat) : (v >>> b).toNat = v.toNat / 2 ^ b := by
  rw [BitVec.toNat_ushiftRight, Nat.shiftRight_eq_div_pow]

theorem toNat_shiftLeft_eq {w : Nat} (v : BitVec w) (b : Nat) : (v <<< b).toNat = v.toNat * 2 ^ b % 2 ^ w := by
  rw [BitVec.toNat_shiftLeft, Nat.shiftLeft_eq]

/-- The two halves of a rotation have no bit in common. -/
theorem mul_two_pow_or {a b k : Nat} (h : b < 2 ^ k) : a * 2 ^ k ||| b = a * 2 ^ k + b := by
  rw [← Nat.shiftLeft_eq, Nat.shiftLeft_add_eq_or_of_lt h]

theorem mul_two_pow_mod (a : Nat) {k : Nat} (h : k ≤ 24) : a * 2 ^ k % 2 ^ 24 = a % 2 ^ (24 - k) * 2 ^ k := by
  rw [← Nat.mul_mod_mul_right, ← pow_add, Nat.sub_add_cancel h]

theorem toNat_rotateRight_eq (v : Word) {k : Nat} (h : k < 24) :
    (v.rotateRight k).toNat = (v.toNat / 2 ^ k + v.toNat % 2 ^ k * 2 ^ (24 - k)) % 16777216 := by
  have hlow : v.toNat / 2 ^ k < 2 ^ (24 - k) := by
    rw [Nat.div_lt_iff_lt_mul (by positivity), ← pow_add, Nat.sub_add_cancel h.le]
    exact v.isLt
  have hsum : v.toNat / 2 ^ k + v.toNat % 2 ^ k * 2 ^ (24 - k) = (v.rotateRight k).toNat := by
    rw [BitVec.toNat_rotateRight, Nat.mod_eq_of_lt h, Nat.shiftRight_eq_div_pow, Nat.shiftLeft_eq, mul_two_pow_mod _ (Nat.sub_le 24 k),
      Nat.sub_sub_self h.le, Nat.or_comm, mul_two_pow_or hlow, Nat.add_comm]
  rw [hsum, Nat.mod_eq_of_lt (v.rotateRight k).isLt]

theorem toNat_rotateLeft_eq (v : Word) {k : Nat} (h : k < 24) :
    (v.rotateLeft k).toNat = v.toNat * 2 ^ k % 16777216 + v.toNat / 2 ^ (24 - k) := by
  have hlow : v.toNat / 2 ^ (24 - k) < 2 ^ k := by
    rw [Nat.div_lt_iff_lt_mul (by positivity), ← pow_add, Nat.add_sub_cancel' h.le]
    exact v.isLt
  rw [BitVec.toNat_rotateLeft, Nat.mod_eq_of_lt h, Nat.shiftRight_eq_div_pow, Nat.shiftLeft_eq, mul_two_pow_mod _ h.le, mul_two_pow_or hlow,
    ← mul_two_pow_mod _ h.le]
  rfl

/-- Settles O27: each is a function of the one register, and each word is the encoder's. -/
theorem rightShiftsAndRotations : Obligations.RightShiftsAndRotations := by
  rintro s r b _ _ rfl rfl
  have hk : b.val % 24 < 24 := Nat.mod_lt _ (by decide)
  refine ⟨exists_next_of_shiftReg (P := fun w => w.toInt = _) rfl (toInt_sshiftRight_eq _ _),
    exists_next_of_shiftReg (P := fun w => w.toNat = _) rfl (toNat_ushiftRight_eq _ _),
    exists_next_of_shiftReg (P := fun w => w.toNat = _) rfl (toNat_rotateRight_eq _ hk),
    exists_next_of_shiftReg (P := fun w => w.toNat = _) rfl (toNat_rotateLeft_eq _ hk), ?_⟩
  simp only [List.forall_mem_cons, -eq_self]
  exact ⟨decodeReadsEncodeBack (.ashr r b) _ rfl, decodeReadsEncodeBack (.lshr r b) _ rfl, decodeReadsEncodeBack (.cshr r b) _ rfl,
    decodeReadsEncodeBack (.cshl r b) _ rfl, List.forall_mem_nil _⟩

/-! ### Left shifts and shifts of a pair (R340, R346 to R349) -/

theorem reg_ne_add_one (r : Reg) : r ≠ r + 1 := by
  revert r
  decide

/-- The parts of a pair as one number. -/
theorem State.pair_toNat (s : State) (r : Reg) : (s.pair r).toNat = (s.reg r).toNat * 16777216 + (s.reg (r + 1)).toNat := by
  rw [State.pair, BitVec.toNat_append, ← Nat.shiftLeft_add_eq_or_of_lt (s.reg (r + 1)).isLt, Nat.shiftLeft_eq]

theorem State.pair_toInt (s : State) (r : Reg) : (s.pair r).toInt = (s.reg r).toInt * 16777216 + (s.reg (r + 1)).toNat := by
  have hhigh := (s.reg r).isLt
  have hlow := (s.reg (r + 1)).isLt
  rw [BitVec.toInt_eq_toNat_cond, BitVec.toInt_eq_toNat_cond, State.pair_toNat]
  split <;> split <;> omega

theorem State.reg_setPair (s : State) (r k : Reg) (v : BitVec 48) : (s.setPair r v).reg k =
    if k = r + 1 then v.extractLsb' 0 24 else if k = r then v.extractLsb' 24 24 else s.reg k := by
  rw [State.setPair, State.reg_setReg, State.reg_setReg]

theorem State.reg_setPair_high (s : State) (r : Reg) (v : BitVec 48) : ((s.setPair r v).reg r).toNat = v.toNat / 16777216 := by
  rw [State.reg_setPair, if_neg (reg_ne_add_one r), if_pos rfl, BitVec.extractLsb'_toNat, Nat.shiftRight_eq_div_pow]
  have := v.isLt
  omega

theorem State.reg_setPair_low (s : State) (r : Reg) (v : BitVec 48) : ((s.setPair r v).reg (r + 1)).toNat = v.toNat % 16777216 := by
  rw [State.reg_setPair, if_pos rfl, BitVec.extractLsb'_toNat]
  rfl

theorem State.reg_setPair_high_toInt (s : State) (r : Reg) (v : BitVec 48) : ((s.setPair r v).reg r).toInt = v.toInt / 16777216 := by
  have := v.isLt
  rw [BitVec.toInt_eq_toNat_cond, BitVec.toInt_eq_toNat_cond, State.reg_setPair_high]
  split <;> split <;> omega

theorem State.reg_setPair_low_toInt (s : State) (r : Reg) (v : BitVec 48) :
    (((s.setPair r v).reg (r + 1)).toNat : Int) = v.toInt % 16777216 := by
  rw [BitVec.toInt_eq_toNat_cond, State.reg_setPair_low]
  split <;> omega

theorem State.onlyRegs_setPair (s : State) (r : Reg) (v : BitVec 48) : s.onlyRegs (s.setPair r v) [r, r + 1] := by
  refine ⟨fun k hk => ?_, fun _ => rfl, rfl⟩
  simp only [List.mem_cons, List.not_mem_nil, or_false, not_or] at hk
  rw [State.reg_setPair, if_neg hk.2, if_neg hk.1]

theorem exists_next_of_leftShift {b : Nat} (h : exec i s = .next (s.leftShift r b)) : ∃ t, exec i s = .next t ∧
    (t.reg r).toNat = (s.reg r).toNat * 2 ^ b % 16777216 ∧ t.pc = s.pc ∧
    s.onlyRegsOverflow t [r] (s.params.overflowUnary && !fits24 ((s.reg r).toInt * 2 ^ b)) := by
  refine ⟨_, h, ?_, by simp [State.leftShift], shiftOverflow_eq (s.reg r) b ▸ (s.onlyRegs_setReg r _).raiseIf_overflow _⟩
  rw [State.leftShift, State.reg_raiseIf, State.reg_setReg, if_pos rfl]
  exact toNat_shiftLeft_eq _ _

theorem exists_next_of_leftShiftPair {b : Nat} (h : exec i s = .next (s.leftShiftPair r b)) {e : Nat}
    (he : e = (s.pair r).toNat * 2 ^ b % 281474976710656) : ∃ t, exec i s = .next t ∧
    (t.reg r).toNat = e / 16777216 ∧ (t.reg (r + 1)).toNat = e % 16777216 ∧ t.pc = s.pc ∧
    s.onlyRegsOverflow t [r, r + 1] (s.params.overflowUnary && !fits48 ((s.pair r).toInt * 2 ^ b)) := by
  obtain rfl : (s.pair r <<< b).toNat = e := (toNat_shiftLeft_eq _ _).trans he.symm
  refine ⟨_, h, ?_, ?_, by simp [State.leftShiftPair, State.setPair],
    shiftOverflow48_eq (s.pair r) b ▸ (s.onlyRegs_setPair r _).raiseIf_overflow _⟩
  · rw [State.leftShiftPair, State.reg_raiseIf, State.reg_setPair_high]
  · rw [State.leftShiftPair, State.reg_raiseIf, State.reg_setPair_low]

end

/-- Settles O28: with the pair as one 48-bit word. -/
theorem leftAndDoubleShiftsFollowTheirFormulas : Obligations.LeftAndDoubleShiftsFollowTheirFormulas := by
  intro s r b
  simp only [← State.pair_toNat, ← State.pair_toInt, List.forall_mem_cons]
  refine ⟨⟨exists_next_of_leftShift rfl, exists_next_of_leftShift rfl, List.forall_mem_nil _⟩,
    ⟨?lshld, ?ashld, List.forall_mem_nil _⟩, ?lshrd, ?ashrd⟩
  case lshld | ashld =>
    rintro _ e rfl he
    exact exists_next_of_leftShiftPair rfl he
  case lshrd =>
    rintro _ rfl
    rw [← toNat_ushiftRight_eq]
    exact ⟨_, rfl, State.reg_setPair_high .., State.reg_setPair_low .., rfl, s.onlyRegs_setPair r _⟩
  case ashrd =>
    rintro _ rfl
    rw [← toInt_sshiftRight_eq]
    exact ⟨_, rfl, State.reg_setPair_high_toInt .., State.reg_setPair_low_toInt .., rfl, s.onlyRegs_setPair r _⟩

/-! ### Masks and bits (R353, R354, R360 to R368) -/

theorem bitAt_maskRight (v : Word) {b : Nat} (h : b ≤ 24) (k : Nat) : bitAt (maskRight v b) k = (bitAt v k && decide (k < b)) := by
  simp only [bitAt, maskRight, BitVec.getMsbD_shiftLeft, BitVec.getMsbD_ushiftRight, Nat.add_sub_cancel]
  rw [Bool.eq_iff_iff]
  by_cases hk : k < b
  · simp [hk]
    omega
  · simp [hk]
    omega

theorem maskRight_of_ge (v : Word) {b : Nat} (h : 24 ≤ b) : maskRight v b = v := by
  rw [maskRight, Nat.sub_eq_zero_of_le h, BitVec.ushiftRight_zero, BitVec.shiftLeft_zero]

theorem bitAt_maskLeft (v : Word) (b k : Nat) : bitAt (maskLeft v b) k = (bitAt v k && decide (b < k)) := by
  simp only [bitAt, maskLeft, BitVec.getMsbD_shiftLeft, BitVec.getMsbD_ushiftRight]
  by_cases hk : b < k
  · rw [Nat.sub_add_cancel hk, decide_eq_true hk, decide_eq_false (by omega : ¬ k < b + 1), Bool.not_false, Bool.true_and, Bool.and_true]
    by_cases h24 : k < 24
    · rw [decide_eq_true h24, Bool.true_and]
    · rw [BitVec.getMsbD_of_ge v k (not_lt.mp h24), Bool.and_false]
  · rw [decide_eq_false hk, decide_eq_true (by omega : k < b + 1), Bool.not_true, Bool.false_and, Bool.and_false, Bool.and_false]

theorem maskLeft_of_ge (v : Word) {b : Nat} (h : 24 ≤ b) : maskLeft v b = 0 := by
  rw [maskLeft, BitVec.shiftLeft_eq_zero (by omega), BitVec.zero_ushiftRight]
  rfl

theorem setBitAt_of_ge (v : Word) {b : Nat} (h : 24 ≤ b) (p : Bool) : setBitAt v b p = v := by
  have hmask : bitMask b = 0 := if_neg (by omega)
  rw [setBitAt, hmask]
  cases p
  · exact BitVec.and_allOnes
  · exact BitVec.or_zero

/-- A bit of a register replaced, if there is a value to put in. -/
def State.putBit (s : State) (r : Reg) (b : Nat) (put : Option Bool) : State := s.setReg r (put.elim (s.reg r) (setBitAt (s.reg r) b))

theorem State.bitOp_eq (s : State) (r : Reg) (b : Nat) (want put : Option Bool) :
    s.bitOp r b want put = (s.putBit r b put).skipIf (decide (want = some (bitAt (s.reg r) b))) := by
  have hput : s.bitOp r b want put = match want with
      | some w => (s.putBit r b put).skipIf (bitAt (s.reg r) b == w)
      | none => s.putBit r b put := by
    cases put
    · rw [State.putBit, Option.elim_none, State.setReg_reg]
      rfl
    · rfl
  rw [hput]
  cases want with
  | none => rfl
  | some w => cases w <;> cases bitAt (s.reg r) b <;> rfl

theorem exec_bitRow : ∀ f ∈ bitRows, ∀ (s : State) (r : Reg) (b : BitCount), exec (f.1 r b) s = .next (s.bitOp r b.val f.2.1 f.2.2) := by
  simp only [bitRows, List.forall_mem_cons]
  exact ⟨fun _ _ _ => rfl, fun _ _ _ => rfl, fun _ _ _ => rfl, fun _ _ _ => rfl, fun _ _ _ => rfl, fun _ _ _ => rfl, fun _ _ _ => rfl,
    fun _ _ _ => rfl, List.forall_mem_nil _⟩

theorem State.bitAt_putBit (s : State) (r : Reg) {b : Nat} (put : Option Bool) {k : Nat} (hk : k < 24) :
    bitAt ((s.putBit r b put).reg r) k = if k = b then put.getD (bitAt (s.reg r) k) else bitAt (s.reg r) k := by
  rw [State.putBit, State.reg_setReg, if_pos rfl]
  cases put with
  | none => simp
  | some p =>
    rw [Option.elim_some, bitAt_setBitAt]
    by_cases h : k = b
    · rw [if_pos ⟨h, h ▸ hk⟩, if_pos h, Option.getD_some]
    · rw [if_neg fun hb => h hb.1, if_neg h]

theorem State.putBit_of_ge (s : State) (r : Reg) {b : Nat} (h : 24 ≤ b) (put : Option Bool) : s.putBit r b put = s := by
  cases put with
  | none => exact s.setReg_reg r
  | some p => rw [State.putBit, Option.elim_some, setBitAt_of_ge _ h, State.setReg_reg]

theorem exec_mr (r : Reg) (b : BitCount) (s : State) : exec (.mr r b) s = .next (s.shiftReg r fun v => maskRight v b.val) := rfl

theorem exec_ml (r : Reg) (b : BitCount) (s : State) : exec (.ml r b) s = .next (s.shiftReg r fun v => maskLeft v b.val) := rfl

/-- Settles O29: MR and ML are functions of the register, a bit instruction replaces its bit and then skips on what the bit was. -/
theorem masksAndBitInstructions : Obligations.MasksAndBitInstructions := by
  intro s r b
  refine ⟨fun hb => ⟨?mr, ?ml, fun f hf => ?bit⟩, fun hb => ⟨?mrAbove, ?mlAbove, fun f hf => ?bitAbove⟩⟩
  case mr =>
    exact exists_next_of_shiftReg (exec_mr r b s) (P := fun w => ∀ k, bitAt w k = (bitAt (s.reg r) k && decide (k < b.val)))
      (bitAt_maskRight (s.reg r) (hb.trans (by decide)))
  case ml =>
    exact exists_next_of_shiftReg (exec_ml r b s) (P := fun w => ∀ k, bitAt w k = (bitAt (s.reg r) k && decide (b.val < k)))
      (bitAt_maskLeft (s.reg r) b.val)
  case bit =>
    refine ⟨_, exec_bitRow f hf s r b, ?_⟩
    rw [State.bitOp_eq]
    refine ⟨fun k hk => ?_, ?_, (s.onlyRegs_setReg r _).skipIf _⟩
    · rw [State.reg_skipIf, State.bitAt_putBit s r _ hk]
    · simp [State.putBit]
  case mrAbove => rw [exec_mr, State.shiftReg, maskRight_of_ge _ hb, State.setReg_reg]
  case mlAbove =>
    exact exists_next_of_shiftReg (exec_ml r b s) (P := fun w => w = 0) (maskLeft_of_ge _ hb)
  case bitAbove =>
    rw [exec_bitRow f hf, State.bitOp_eq, State.putBit_of_ge s r hb, bitAt_of_ge _ hb]
    exact congrArg Host.Outcome.next ((s.compare_eq _).trans (by simp only [decide_eq_true_eq]))

end Sys2Proof.Machine
end

section
/-!
The IOT instruction (R380 to R405): when an IOT is its action and when it is illegal, and the statements.
-/

namespace Sys2Proof.Machine

theorem mem_userCodes_iff (d : Nat) : d ∈ userCodes ↔ userLegal d = true := by
  simp [userCodes, userLegal, or_assoc]

/-- The codes with an action are the 25 implemented ones (R381). -/
theorem State.mem_iotCodes_of_iotAction {s t : State} {r : Reg} {d : Nat} (h : s.iotAction r d = some t) : d ∈ iotCodes := by
  unfold State.iotAction at h
  split at h
  case h_26 => cases h
  all_goals decide

section

variable {s t : State} {r : Reg} {dev : BitVec 16}

theorem exec_iot_of_mayIssue (h : s.mayIssue (deviceCode s.params.iotDevHighIgnored dev))
    (ht : s.iotAction r (deviceCode s.params.iotDevHighIgnored dev) = some t) : exec (.iot r dev) s = .next t := by
  obtain ⟨-, hmode⟩ := h
  rw [mem_userCodes_iff] at hmode
  exact congrArg Host.Outcome.next (State.iot_of_action rfl ht hmode)

theorem exec_sleep_eq : exec .sleep s = exec (.iot Reg.ac0 0x0008) s := rfl

theorem State.settled_eq (s : State) : s.settled = decide (s.queue = []) := by
  rw [State.settled, Bool.eq_iff_iff, List.isEmpty_iff, decide_eq_true_eq]

theorem State.skipIf_eq (s : State) (c : Bool) : s.skipIf c = { s with pc := if c then s.pc + 1 else s.pc } := s.compare_eq c

theorem State.iot_of_not_mayIssue (h : ¬ s.mayIssue (deviceCode s.params.iotDevHighIgnored dev)) : s.iot r dev = s.illegalIot dev := by
  rcases s.iot_cases r dev with hi | ⟨hmode, ha⟩
  · exact hi
  · rw [← mem_userCodes_iff] at hmode
    exact absurd ⟨State.mem_iotCodes_of_iotAction ha, hmode⟩ h

theorem toNat_illegalIot_iodce (s : State) (dev : BitVec 16) : (s.illegalIot dev).iodce.toNat = dev.toNat % 256 := BitVec.toNat_setWidth 8 dev

end

/-- Settles O31. -/
theorem illegalIotIsRecorded : Obligations.IllegalIotIsRecorded := by
  refine fun s => ⟨fun r dev h => ?_, fun hm => ?_⟩
  · exact ⟨_, congrArg Host.Outcome.next (State.iot_of_not_mayIssue h), toNat_illegalIot_iodce s dev, State.abandoned_raise _ _⟩
  · have h : ¬ s.mayIssue (deviceCode s.params.iotDevHighIgnored 0x0008) := by
      rintro ⟨-, hx | hu⟩
      · rw [hm] at hx
        cases hx
      · cases hp : s.params.iotDevHighIgnored <;> rw [hp] at hu <;> revert hu <;> decide
    exact ⟨_, congrArg Host.Outcome.next (State.iot_of_not_mayIssue h), toNat_illegalIot_iodce s 0x0008, State.abandoned_raise _ _⟩

/-- Settles O30: in a mode that may issue its code an IOT is its action. -/
theorem iotMovesRegistersAndSetsFunctions : Obligations.IotMovesRegistersAndSetsFunctions := by
  rintro s r dev _ rfl h
  have act {t : State} {d : Nat} (hd : d = deviceCode s.params.iotDevHighIgnored dev) (ht : s.iotAction r d = some t) :
      exec (.iot r dev) s = .next t := by
    subst hd
    exact exec_iot_of_mayIssue h ht
  have read {v : Word} {d : Nat} (hd : d = deviceCode s.params.iotDevHighIgnored dev) (ht : s.iotAction r d = some (s.setReg r v)) :
      ∃ t, exec (.iot r dev) s = .next t ∧ t.reg r = v ∧ t.pc = s.pc ∧ s.onlyRegs t [r] :=
    ⟨_, act hd ht, by rw [State.reg_setReg, if_pos rfl], rfl, s.onlyRegs_setReg r v⟩
  refine ⟨?reads, ?loads, fun hd => ?readDir, fun hd => ?loadDir, ?functions, fun hm => ?sleep⟩
  case reads =>
    simp only [iotReads, List.forall_mem_cons]
    exact ⟨fun hd => read hd rfl, fun hd => read hd rfl, fun hd => read hd rfl, fun hd => read hd rfl, fun hd => read hd rfl,
      fun hd => read hd rfl, fun hd => read hd rfl, fun hd => read hd rfl, List.forall_mem_nil _⟩
  case loads =>
    simp only [iotLoads, List.forall_mem_cons]
    exact ⟨fun hd => act hd rfl, fun hd => act hd rfl, fun hd => act hd rfl, fun hd => act hd rfl, fun hd => act hd rfl,
      fun hd => act hd rfl, fun hd => act hd rfl, fun hd => act hd rfl, List.forall_mem_nil _⟩
  case readDir =>
    obtain ⟨t, ht, hreg, hpc, honly⟩ := read (v := s.dirRead) hd.symm rfl
    refine ⟨t, ht, fun k _ => ?_, hpc, honly⟩
    rw [hreg, State.dirRead, bitAt_setBitAt, State.settled_eq]
    simp
  case loadDir =>
    refine ⟨_, act hd.symm rfl, fun k _ => ?_, rfl⟩
    rw [State.loadDir_dir, bitAt_setBitAt]
    simp
  case functions =>
    simp only [List.forall_mem_cons]
    refine ⟨fun hd => act hd rfl, fun hd => act hd rfl, fun hd => act hd rfl, fun hd => act hd rfl, fun hd => act hd rfl, fun hd => ?_,
      fun hd => ?_, List.forall_mem_nil _⟩
    · rw [act hd rfl, State.skipIf_eq, State.settled_eq]
      simp
    · rw [act hd rfl, State.skipIf_eq]
      cases s.attention <;> rfl
  case sleep =>
    have hd : deviceCode s.params.iotDevHighIgnored 0x0008 = 8 := by
      cases s.params.iotDevHighIgnored <;> rfl
    refine exec_sleep_eq.trans (exec_iot_of_mayIssue (t := { s with sleeping := true }) ?_ ?_) <;> rw [hd]
    · exact ⟨by decide, .inl hm⟩
    · rfl

end Sys2Proof.Machine
end

section
/-!
The arithmetic of the units (R534, R536, R553, R554): the product of two fractions and the clipped part of a segment, and their statements.
-/

namespace Sys2Proof.Machine

/-! ### Fractional products (R534, R536) -/

/-- A number that 24 bits hold is the value of its word. -/
theorem toInt_wordOfInt {x : Int} (hl : -8388608 ≤ x) (hh : x < 8388608) : (wordOfInt x).toInt = x := by
  rw [wordOfInt, BitVec.toInt_ofInt]
  exact Int.bmod_eq_of_le (by omega) (by omega)

/-- But for -1 times -1 a product of fractions is at most 1 - 2^-23 in magnitude. -/
theorem abs_mul_toInt_le {a b : Word} (h : ¬ (a = 0x800000 ∧ b = 0x800000)) : |a.toInt * b.toInt| ≤ 8388608 * 8388607 := by
  have range (c : Word) : -8388608 ≤ c.toInt ∧ c.toInt ≤ 8388607 :=
    ⟨BitVec.le_toInt c, Int.le_of_lt_add_one (BitVec.toInt_lt (x := c))⟩
  have small {c : Word} (hc : c ≠ 0x800000) : |c.toInt| ≤ 8388607 := by
    have hne : c.toInt ≠ -8388608 := fun he => hc (BitVec.toInt_inj.mp (he.trans (by decide)))
    have := range c
    rw [abs_le]
    omega
  have any (c : Word) : |c.toInt| ≤ 8388608 := by
    have := range c
    rw [abs_le]
    omega
  rw [abs_mul]
  rcases not_and_or.mp h with ha | hb
  · exact (mul_le_mul (small ha) (any b) (abs_nonneg _) (by decide)).trans (by decide)
  · exact mul_le_mul (any a) (small hb) (abs_nonneg _) (by decide)

/-- A product of fractions is its exact value rounded down or up, and exact if it can be. -/
theorem fmul_eq_floor_or_ceil (m : Arith) (a b : Word) : ∃ up : Int, fmul m a b = wordOfInt (a.toInt * b.toInt / 8388608 + up) ∧
    (up = 0 ∨ (up = 1 ∧ a.toInt * b.toInt % 8388608 ≠ 0)) := by
  cases m
  case reference =>
    refine ⟨(a.toInt * b.toInt + 4194304) / 8388608 - a.toInt * b.toInt / 8388608, ?_, ?_⟩
    · rw [add_sub_cancel]
      rfl
    · omega
  case unspecified =>
    refine ⟨if a.toInt * b.toInt % 8388608 = 0 then 0 else if Config.roundUp a b then 1 else 0, rfl, ?_⟩
    split
    next => exact .inl rfl
    next h =>
      split
      · exact .inr ⟨rfl, h⟩
      · exact .inl rfl

/-- Settles O55. -/
theorem fractionalProductsRound : Obligations.FractionalProductsRound := by
  refine fun m a b => ⟨?_, fun h => ?_⟩
  · obtain ⟨up, heq, rfl | ⟨-, hup⟩⟩ := fmul_eq_floor_or_ceil m 0x800000 0x800000
    · rw [heq]
      decide
    · exact absurd (by decide) hup
  · obtain ⟨up, heq, hup⟩ := fmul_eq_floor_or_ceil m a b
    have hbound := abs_le.mp (abs_mul_toInt_le h)
    rw [heq, toInt_wordOfInt (by omega) (by omega), abs_lt]
    omega

/-! ### The clipped part of a segment (R553, R554) -/

section

variable {n d : Int}

/-- A span has positive denominators. -/
def Span.Valid (p : Span) : Prop := 0 < p.ld ∧ 0 < p.hd

/-- The point at `n / d` lies in the span. -/
def Span.Contains (n d : Int) (p : Span) : Prop := p.ln * d ≤ n * p.ld ∧ n * p.hd ≤ p.hn * d

/-- The order of fractions with positive denominators is transitive. -/
theorem frac_le_trans {a b c e f g : Int} (hb : 0 < b) (he : 0 < e) (hg : 0 < g) (h1 : a * e ≤ c * b) (h2 : c * g ≤ f * e) :
    a * g ≤ f * b := by
  have h : a * g * e ≤ f * b * e := by
    calc a * g * e = a * e * g := by ring
      _ ≤ c * b * g := by gcongr
      _ = c * g * b := by ring
      _ ≤ f * e * b := by gcongr
      _ = f * b * e := by ring
  exact le_of_mul_le_mul_right h he

/-- A quantity that falls below zero bounds the span from above, unless the span ends before. -/
theorem Span.cut_falling (hd : 0 < d) {f0 f1 : Int} (h0 : 0 ≤ f0) (h1 : f1 < 0) {p : Span} (hp : p.Valid) : ∃ q, Span.cut f0 f1 p = some q ∧
    q.Valid ∧ (q.Contains n d ↔ p.Contains n d ∧ notNegativeAt n d (f0, f1)) := by
  obtain ⟨hld, hhd⟩ := hp
  have hB : 0 < f0 - f1 := by omega
  have hin : notNegativeAt n d (f0, f1) ↔ n * (f0 - f1) ≤ f0 * d := by
    unfold notNegativeAt
    constructor <;> intro h <;> linarith
  rw [hin, Span.cut, if_pos h0, if_neg (not_le.mpr h1)]
  split
  next hc =>
    exact ⟨_, rfl, ⟨hld, hB⟩, fun h => ⟨⟨h.1, frac_le_trans hd hB hhd h.2 hc.le⟩, h.2⟩, fun h => ⟨h.1.1, h.2⟩⟩
  next hc => exact ⟨_, rfl, ⟨hld, hhd⟩, fun h => ⟨h, frac_le_trans hd hhd hB h.2 (not_lt.mp hc)⟩, fun h => h.1⟩

/-- A quantity that rises to zero bounds the span from below, unless the span begins after. -/
theorem Span.cut_rising (hd : 0 < d) {f0 f1 : Int} (h0 : f0 < 0) (h1 : 0 ≤ f1) {p : Span} (hp : p.Valid) : ∃ q, Span.cut f0 f1 p = some q ∧
    q.Valid ∧ (q.Contains n d ↔ p.Contains n d ∧ notNegativeAt n d (f0, f1)) := by
  obtain ⟨hld, hhd⟩ := hp
  have hB : 0 < f1 - f0 := by omega
  have hin : notNegativeAt n d (f0, f1) ↔ -f0 * d ≤ n * (f1 - f0) := by
    unfold notNegativeAt
    constructor <;> intro h <;> linarith
  rw [hin, Span.cut, if_neg (not_le.mpr h0), if_pos h1]
  split
  next hc =>
    exact ⟨_, rfl, ⟨hB, hhd⟩, fun h => ⟨⟨frac_le_trans hld hB hd hc.le h.1, h.2⟩, h.1⟩, fun h => ⟨h.2, h.1.2⟩⟩
  next hc => exact ⟨_, rfl, ⟨hld, hhd⟩, fun h => ⟨h, frac_le_trans hB hld hd (not_lt.mp hc) h.1⟩, fun h => h.1⟩

/-- A span that may be gone, with positive denominators if it is not. -/
def ValidSpan (o : Option Span) : Prop := ∀ p, o = some p → p.Valid

/-- The point at `n / d` lies in a span that is not gone. -/
def SpanHas (n d : Int) (o : Option Span) : Prop := ∃ p, o = some p ∧ p.Contains n d

/-- Cutting keeps just the points at which the quantity is not negative. -/
theorem cut_spec (hn : 0 ≤ n) (hnd : n ≤ d) (hd : 0 < d) (f : Int × Int) {o : Option Span} (ho : ValidSpan o) :
    ValidSpan (o.bind (Span.cut f.1 f.2)) ∧ (SpanHas n d (o.bind (Span.cut f.1 f.2)) ↔ SpanHas n d o ∧ notNegativeAt n d f) := by
  obtain ⟨f0, f1⟩ := f
  cases o with
  | none => simp [ValidSpan, SpanHas]
  | some p =>
    have hp := ho p rfl
    have within : (∃ q, Span.cut f0 f1 p = some q ∧ q.Valid ∧ (q.Contains n d ↔ p.Contains n d ∧ notNegativeAt n d (f0, f1))) →
        ValidSpan ((some p).bind (Span.cut f0 f1)) ∧
          (SpanHas n d ((some p).bind (Span.cut f0 f1)) ↔ SpanHas n d (some p) ∧ notNegativeAt n d (f0, f1)) := by
      rintro ⟨q, hq, hv, hc⟩
      simpa [ValidSpan, SpanHas, hq] using ⟨hv, hc⟩
    rcases le_or_gt 0 f0 with h0 | h0 <;> rcases le_or_gt 0 f1 with h1 | h1
    · have hin : notNegativeAt n d (f0, f1) := add_nonneg (mul_nonneg h0 (sub_nonneg.mpr hnd)) (mul_nonneg h1 hn)
      exact within ⟨p, by rw [Span.cut, if_pos h0, if_pos h1], hp, by simp [hin]⟩
    · exact within (Span.cut_falling hd h0 h1 hp)
    · exact within (Span.cut_rising hd h0 h1 hp)
    · have hout : ¬ notNegativeAt n d (f0, f1) := by
        unfold notNegativeAt
        nlinarith
      have hcut : Span.cut f0 f1 p = none := by rw [Span.cut, if_neg (not_le.mpr h0), if_neg (not_le.mpr h1)]
      simp [ValidSpan, SpanHas, hcut, hout]

/-- Cutting by one quantity after another. -/
theorem foldl_cut_spec (hn : 0 ≤ n) (hnd : n ≤ d) (hd : 0 < d) (fs : List (Int × Int)) {o : Option Span} (ho : ValidSpan o) :
    ValidSpan (fs.foldl (fun acc f => acc.bind (Span.cut f.1 f.2)) o) ∧
      (SpanHas n d (fs.foldl (fun acc f => acc.bind (Span.cut f.1 f.2)) o) ↔ SpanHas n d o ∧ ∀ f ∈ fs, notNegativeAt n d f) := by
  induction fs generalizing o with
  | nil => exact ⟨ho, by simp⟩
  | cons f fs ih =>
    obtain ⟨hv, hc⟩ := cut_spec hn hnd hd f ho
    obtain ⟨hv', hc'⟩ := ih hv
    exact ⟨hv', by rw [List.foldl_cons, hc', hc, List.forall_mem_cons, and_assoc]⟩

/-- A span that holds a point does not end before it begins. -/
theorem Span.Contains.nonempty (hd : 0 < d) {p : Span} (hp : p.Valid) (h : p.Contains n d) : p.ln * p.hd ≤ p.hn * p.ld :=
  frac_le_trans hp.1 hd hp.2 h.1 h.2

end

/-- Settles O56: the whole segment, cut by each quantity in turn. -/
theorem clippingKeepsExactlyTheInside : Obligations.ClippingKeepsExactlyTheInside := by
  intro fs n d hn hnd hd
  have hwhole : ValidSpan (some { ln := 0, ld := 1, hn := 1, hd := 1 }) := by
    rintro _ ⟨⟩
    exact ⟨one_pos, one_pos⟩
  obtain ⟨hv, hc⟩ := foldl_cut_spec hn hnd hd fs hwhole
  have hin : SpanHas n d (some { ln := 0, ld := 1, hn := 1, hd := 1 }) := ⟨_, rfl, by simpa using hn, by simpa using hnd⟩
  rw [← hc.trans (and_iff_right hin), clipSpan]
  generalize fs.foldl (fun acc f => acc.bind (Span.cut f.1 f.2)) (some { ln := 0, ld := 1, hn := 1, hd := 1 }) = o at hv
  constructor
  · rintro ⟨p, rfl, hp⟩
    have hpos := hv p rfl
    exact ⟨p, by rw [Option.bind_some, if_pos (hp.nonempty hd hpos)], hpos.1, hpos.2, hp.1, hp.2⟩
  · rintro ⟨p, hp, -, -, hlo, hhi⟩
    obtain ⟨q, rfl, hq⟩ := Option.bind_eq_some_iff.mp hp
    split at hq <;> cases hq
    exact ⟨_, rfl, hlo, hhi⟩

end Sys2Proof.Machine
end

section
/-!
The loads of the pipeline registers (R424, R431, R441, R544, R545, R562, R563): elements of the matrix array after one of them is replaced, and the
registers of the Clipping Divider, with the statements about loads.
-/

namespace Sys2Proof.Machine

/-! ### The matrix array (R76, R544) -/

/-- Two positions of the array are one storage register only if they are one position, whatever the transpose bits (R544). -/
theorem mmPos_inj {tr1 tr0 : Bool} {a b : DevAddr} {c j : Fin 4} : mmPos tr1 tr0 a c = mmPos tr1 tr0 b j ↔ a = b ∧ c = j := by
  refine ⟨fun h => ?_, fun h => by rw [h.1, h.2]⟩
  have ha := a.isLt
  have hb := b.isLt
  have hc := c.isLt
  have hj := j.isLt
  rw [Fin.ext_iff, Fin.ext_iff]
  rw [Fin.ext_iff] at h
  cases tr1 <;> cases tr0 <;> simp only [mmPos, Fin.ofNat] at h <;>
    rw [Nat.mod_eq_of_lt (b := 64) (by omega), Nat.mod_eq_of_lt (b := 64) (by omega)] at h <;> omega

/-- What another state's array gives depends on the array and MDIR alone. -/
theorem State.mmAt_congr {s t : State} (hm : t.mm = s.mm) (hd : t.mdir = s.mdir) (b : DevAddr) (j : Fin 4) : t.mmAt b j = s.mmAt b j := by
  simp only [State.mmAt, hm, hd]

theorem State.mmAt_setMm (s : State) (a b : DevAddr) (c j : Fin 4) (v : Word) :
    (s.setMm a c v).mmAt b j = if b = a ∧ j = c then v else s.mmAt b j := by
  have hpos : (mmPos s.mdir.tr1 s.mdir.tr0 a c).val = (mmPos s.mdir.tr1 s.mdir.tr0 b j).val ↔ b = a ∧ j = c := by
    rw [← Fin.ext_iff, mmPos_inj, eq_comm, and_congr_right_iff]
    exact fun _ => eq_comm
  rw [State.mmAt, State.setMm, Vector.getElem_set]
  simp only [hpos]
  rfl

section

variable (s : State) (a b : DevAddr) (j : Fin 4) (p : Fin 4 → Word)

/-- The first two elements of a row replaced. -/
theorem State.mmAt_setMmRow_two : (s.setMmRow a (.two (p 0) (p 1))).mmAt b j = if b = a ∧ j.val < 2 then p j else s.mmAt b j := by
  simp only [State.setMmRow, State.mmAt_setMm]
  by_cases hb : b = a
  · fin_cases j <;> simp [hb]
  · simp [hb]

/-- The four elements of a row replaced. -/
theorem State.mmAt_setMmRow_four : (s.setMmRow a (.four (p 0) (p 1) (p 2) (p 3))).mmAt b j = if b = a then p j else s.mmAt b j := by
  simp only [State.setMmRow, State.mmAt_setMm]
  by_cases hb : b = a
  · fin_cases j <;> simp [hb]
  · simp [hb]

end

theorem State.setMmRow_frame (s : State) (a : DevAddr) (d : Tuple) : s.setMmRow a d = { s with mm := (s.setMmRow a d).mm } := by
  cases d <;> rfl

/-- The words of a list of four as a function of the position. -/
theorem four_getElem (d0 d1 d2 d3 : Word) (j : Fin 4) : [d0, d1, d2, d3][j] = ![d0, d1, d2, d3] j := by
  fin_cases j <;> rfl

section

variable (s : State) (a b : DevAddr) (j : Fin 4) (d0 d1 d2 d3 : Word)

theorem State.mmAt_load_mm_two :
    (s.load .mm a (.two d0 d1)).mmAt b j = if b = a ∧ j.val < 2 then [d0, d1, 0, 0][j] else s.mmAt b j := by
  rw [four_getElem]
  exact s.mmAt_setMmRow_two a b j ![d0, d1, 0, 0]

theorem State.mmAt_load_mm_four :
    (s.load .mm a (.four d0 d1 d2 d3)).mmAt b j = if b = a then [d0, d1, d2, d3][j] else s.mmAt b j := by
  rw [four_getElem]
  exact s.mmAt_setMmRow_four a b j ![d0, d1, d2, d3]

theorem State.mmAt_load_mmr_two : (s.load .mmr a (.two d0 d1)).mmAt b j =
    if b = a ∧ j.val < 2 then [d0, d1, 0, 0][j] + s.mmAt a j else s.mmAt b j := by
  rw [four_getElem]
  exact s.mmAt_setMmRow_two a b j fun j => ![d0, d1, 0, 0] j + s.mmAt a j

theorem State.mmAt_load_mmr_four : (s.load .mmr a (.four d0 d1 d2 d3)).mmAt b j =
    if b = a then [d0, d1, d2, d3][j] + s.mmAt a j else s.mmAt b j := by
  rw [four_getElem]
  exact s.mmAt_setMmRow_four a b j fun j => ![d0, d1, d2, d3] j + s.mmAt a j

theorem State.mmAt_load_mmp_two : (s.load .mmp a (.two d0 d1)).mmAt b j =
    if b = rowOfA a ∧ j.val < 2 then accumulate s.params.arith [fmul s.params.arith d0 (s.mmAt (rowOf (a.val / 4) 0) j),
      fmul s.params.arith d1 (s.mmAt (rowOf (a.val / 4) 1) j)]
    else s.mmAt b j :=
  s.mmAt_setMmRow_two (rowOfA a) b j fun j => accumulate s.params.arith [fmul s.params.arith d0 (s.mmAt (rowOf (a.val / 4) 0) j),
    fmul s.params.arith d1 (s.mmAt (rowOf (a.val / 4) 1) j)]

theorem State.mmAt_load_mmp_four : (s.load .mmp a (.four d0 d1 d2 d3)).mmAt b j =
    if b = rowOfA a then accumulate s.params.arith [fmul s.params.arith d0 (s.mmAt (rowOf (a.val / 4) 0) j),
      fmul s.params.arith d1 (s.mmAt (rowOf (a.val / 4) 1) j), fmul s.params.arith d2 (s.mmAt (rowOf (a.val / 4) 2) j),
      fmul s.params.arith d3 (s.mmAt (rowOf (a.val / 4) 3) j)]
    else s.mmAt b j :=
  s.mmAt_setMmRow_four (rowOfA a) b j fun j => accumulate s.params.arith [fmul s.params.arith d0 (s.mmAt (rowOf (a.val / 4) 0) j),
    fmul s.params.arith d1 (s.mmAt (rowOf (a.val / 4) 1) j), fmul s.params.arith d2 (s.mmAt (rowOf (a.val / 4) 2) j),
    fmul s.params.arith d3 (s.mmAt (rowOf (a.val / 4) 3) j)]

theorem State.load_matrix_frame {m : LoadManner} (hm : m ∈ [LoadManner.mm, .mmr, .mmp]) (d : Tuple) :
    s.load m a d = { s with mm := (s.load m a d).mm } := by
  simp only [List.mem_cons, List.not_mem_nil, or_false] at hm
  rcases hm with rfl | rfl | rfl <;> exact s.setMmRow_frame _ _

end

/-! ### The directive register (R545) -/

/-- The J, K rule as a formula: set by J alone, kept or cleared by K. -/
theorem jk_eq (b j k : Bool) : jk b j k = ((j && !b) || (!k && b)) := by
  cases b <;> cases j <;> cases k <;> rfl

theorem State.loadMdir_bits (s : State) (a : DevAddr) (d0 d1 : Word) (h : s.params.mdirLayout = Params.default.mdirLayout) :
    ∀ f ∈ [(Mdir.moc, 0), (Mdir.mom, 2), (Mdir.curve, 4), (Mdir.tr1, 6), (Mdir.tr0, 8)],
      f.1 (s.load .mdr a (.two d0 d1)).mdir = ((bitAt d0 f.2 && !(f.1 s.mdir)) || (!(bitAt d0 (f.2 + 1)) && f.1 s.mdir)) := by
  have hl : (s.load .mdr a (.two d0 d1)).mdir = mdirLoad Params.default.mdirLayout s.mdir d0 d1 := by
    rw [← h]
    rfl
  simp only [hl, List.forall_mem_cons]
  exact ⟨jk_eq .., jk_eq .., jk_eq .., jk_eq .., jk_eq .., List.forall_mem_nil _⟩

/-! ### The registers of the Clipping Divider (R424, R431) -/

/-- The addresses of the four-word registers (R424). -/
theorem quad_cases {a : DevAddr} (h : 12 ≤ a.val) : a = 12 ∨ a = 13 ∨ a = 14 ∨ a = 15 := by
  revert a
  decide

/-- The addresses of the two-word registers whose load takes the words as they are. -/
theorem plain_cases {a : DevAddr} (h : a.val ≤ 8 ∨ a = 10) :
    a = 0 ∨ a = 1 ∨ a = 2 ∨ a = 3 ∨ a = 4 ∨ a = 5 ∨ a = 6 ∨ a = 7 ∨ a = 8 ∨ a = 10 := by
  revert a
  decide

section

variable (s : State) {a b : DevAddr} (d0 d1 d2 d3 : Word)

theorem State.quad_load_four (h : 12 ≤ a.val) : (s.load .cla a (.four d0 d1 d2 d3)).cd.quad a = ⟨d0, d1, d2, d3⟩ := by
  rcases quad_cases h with rfl | rfl | rfl | rfl <;> rfl

theorem State.quad_load_four_relative (h : 12 ≤ a.val) : (s.load .clr a (.four d0 d1 d2 d3)).cd.quad a =
    ⟨s.cd.save.c0 + d0, s.cd.save.c1 + d1, s.cd.save.c2 + d2, s.cd.save.c3 + d3⟩ := by
  rcases quad_cases h with rfl | rfl | rfl | rfl <;> rfl

/-- Both halves of a four-word register written: the others stay. -/
theorem State.quad_write_pair_ne (h : 12 ≤ a.val) (hb : 12 ≤ b.val) (hne : b ≠ a) :
    ((s.cdWrite (pairLo a) d0 d1).cdWrite (pairHi a) d2 d3).cd.quad b = s.cd.quad b := by
  rcases quad_cases h with rfl | rfl | rfl | rfl <;> rcases quad_cases hb with rfl | rfl | rfl | rfl <;>
    first | rfl | exact absurd rfl hne

/-- Both halves of a four-word register written: nothing changes but the four-word registers. -/
theorem State.write_pair_frame (h : 12 ≤ a.val) : ∃ t, t = (s.cdWrite (pairLo a) d0 d1).cdWrite (pairHi a) d2 d3 ∧ t = { s with cd := t.cd } ∧
    t.cd = { s.cd with save := t.cd.save, view := t.cd.view, wind := t.cd.wind, inst := t.cd.inst } := by
  rcases quad_cases h with rfl | rfl | rfl | rfl <;> exact ⟨_, rfl, rfl, rfl⟩

theorem State.loadCd_four_pair (m : LoadManner) (h : 12 ≤ a.val) : ∃ v0 v1 v2 v3,
    s.loadCd m a (.four d0 d1 d2 d3) = (s.cdWrite (pairLo a) v0 v1).cdWrite (pairHi a) v2 v3 := by
  simp only [State.loadCd, if_pos h]
  exact ⟨_, _, _, _, rfl⟩

theorem State.cdRead_cdWrite_self (h : a.val ≤ 8 ∨ a = 10) : (s.cdWrite a d0 d1).cdRead a = (d0, d1) := by
  rcases plain_cases h with rfl | rfl | rfl | rfl | rfl | rfl | rfl | rfl | rfl | rfl <;> rfl

theorem State.cdRead_cdWrite_ne (h : a.val ≤ 8 ∨ a = 10) (hne : b ≠ a) : (s.cdWrite a d0 d1).cdRead b = s.cdRead b := by
  rcases plain_cases h with rfl | rfl | rfl | rfl | rfl | rfl | rfl | rfl | rfl | rfl
  all_goals
    unfold State.cdRead
    split <;> first | rfl | exact absurd rfl hne

theorem State.cdWrite_frame (h : a.val ≤ 8 ∨ a = 10) : ∃ t c, t = s.cdWrite a d0 d1 ∧ c = t.cd ∧ t = { s with cd := c } ∧
    c = { s.cd with save := c.save, view := c.view, wind := c.wind, inst := c.inst, name := c.name, hitang := c.hitang } := by
  rcases plain_cases h with rfl | rfl | rfl | rfl | rfl | rfl | rfl | rfl | rfl | rfl <;> exact ⟨_, _, rfl, rfl, rfl, rfl⟩

/-- A two-word register takes two words, of four the two pairs in turn. -/
theorem State.loadCd_two (m : LoadManner) (h : a.val < 12) : s.loadCd m a (.two d0 d1) =
    if m.relative then s.cdWrite a (s.cd.save.c0 + d0) (s.cd.save.c1 + d1) else s.cdWrite a d0 d1 := by
  rw [State.loadCd, if_neg (not_le.mpr h)]

theorem State.loadCd_four (m : LoadManner) (h : a.val < 12) : s.loadCd m a (.four d0 d1 d2 d3) =
    if m.relative then
      (s.cdWrite a (s.cd.save.c0 + d0) (s.cd.save.c1 + d1)).cdWrite a (s.cd.save.c2 + d2) (s.cd.save.c3 + d3)
    else (s.cdWrite a d0 d1).cdWrite a d2 d3 := by
  simp only [State.loadCd, if_neg (not_le.mpr h)]
  cases m.relative <;> rfl

end

/-- Settles O38: register by register of the Clipping Divider, the matrix array by its elements, MDIR by its bits. -/
theorem loadsPutTheirDataInTheRegister : Obligations.LoadsPutTheirDataInTheRegister := by
  intro s a d0 d1 d2 d3
  refine ⟨fun h => ⟨s.quad_load_four d0 d1 d2 d3 h, s.quad_load_four_relative d0 d1 d2 d3 h, ?quadFrame⟩, fun h => ?plain,
    fun h => ?twoWord, rfl, rfl, fun b j => ⟨s.mmAt_load_mm_four .., s.mmAt_load_mmr_four .., s.mmAt_load_mm_two .., s.mmAt_load_mmr_two ..,
      s.mmAt_load_mmp_four .., s.mmAt_load_mmp_two ..⟩,
    ?matrixFrame, ⟨_, rfl, rfl, rfl⟩, fun h => ⟨rfl, s.loadMdir_bits a d0 d1 h⟩⟩
  case quadFrame =>
    intro m hm
    have hload : s.load m a (.four d0 d1 d2 d3) = s.loadCd m a (.four d0 d1 d2 d3) := by
      simp only [List.mem_cons, List.not_mem_nil, or_false] at hm
      rcases hm with rfl | rfl <;> rfl
    obtain ⟨v0, v1, v2, v3, hv⟩ := s.loadCd_four_pair d0 d1 d2 d3 m h
    obtain ⟨t, ht, hframe⟩ := s.write_pair_frame v0 v1 v2 v3 h
    refine ⟨t, by rw [ht, hload, hv], fun b hb hne => ?_, hframe⟩
    rw [ht, s.quad_write_pair_ne v0 v1 v2 v3 h hb hne]
  case plain =>
    have hload : s.load .cla a (.two d0 d1) = s.cdWrite a d0 d1 := by
      refine s.loadCd_two d0 d1 .cla ?_
      rcases h with h | rfl
      · omega
      · decide
    rw [hload]
    exact ⟨s.cdRead_cdWrite_self d0 d1 h, fun b _ hne => s.cdRead_cdWrite_ne d0 d1 h hne, s.cdWrite_frame d0 d1 h⟩
  case twoWord =>
    simp only [State.load, State.loadCd_two _ _ _ _ h, State.loadCd_four _ _ _ _ _ _ h, LoadManner.relative, if_true, if_false,
      Bool.false_eq_true]
    exact ⟨trivial, trivial, trivial, trivial, trivial⟩
  case matrixFrame => exact fun m hm d _ => ⟨_, rfl, s.load_matrix_frame a hm d⟩

/-! ### The 2D four-component load (R441, R571) -/

/-- No edge of either rectangle lies beyond the other, edges included (R556, D21). -/
theorem areaInCommon_eq (w r : Quad) : areaInCommon w r = decide (w.c0.toInt ≤ r.c2.toInt ∧ r.c0.toInt ≤ w.c2.toInt ∧
    w.c1.toInt ≤ r.c3.toInt ∧ r.c1.toInt ≤ w.c3.toInt) := by
  rw [areaInCommon, Bool.eq_iff_iff]
  simp only [Bool.not_eq_true', Bool.or_eq_false_iff, decide_eq_false_iff_not, decide_eq_true_eq, not_lt, gt_iff_lt, and_assoc]

section

variable (s : State) {a : DevAddr} (v0 v1 v2 v3 : Word)

theorem State.quad_write_pair (h : 12 ≤ a.val) :
    ((s.cdWrite (pairLo a) v0 v1).cdWrite (pairHi a) v2 v3).cd.quad a = ⟨v0, v1, v2, v3⟩ := by
  rcases quad_cases h with rfl | rfl | rfl | rfl <;> rfl

/-- What a 2D four-component load that writes these words does. -/
theorem State.load2dFour_spec (h : 12 ≤ a.val) {t : State}
    (ht : t = ((s.cdWrite (pairLo a) v0 v1).cdWrite (pairHi a) v2 v3).setAic a) : ∃ r, r = t.cd.quad a ∧ r = ⟨v0, v1, v2, v3⟩ ∧
      (∀ b : DevAddr, 12 ≤ b.val → b ≠ a → t.cd.quad b = s.cd.quad b) ∧
      (∀ k < 24, bitAt t.dir k = if k = 22 then
          decide (t.cd.wind.c0.toInt ≤ r.c2.toInt ∧ r.c0.toInt ≤ t.cd.wind.c2.toInt ∧
            t.cd.wind.c1.toInt ≤ r.c3.toInt ∧ r.c1.toInt ≤ t.cd.wind.c3.toInt)
        else bitAt s.dir k) ∧
      t = { s with dir := t.dir, cd := t.cd } := by
  obtain ⟨y, hy, hframe, -⟩ := s.write_pair_frame v0 v1 v2 v3 h
  have hquad : y.cd.quad a = ⟨v0, v1, v2, v3⟩ := by rw [hy, s.quad_write_pair v0 v1 v2 v3 h]
  have hne : ∀ b : DevAddr, 12 ≤ b.val → b ≠ a → y.cd.quad b = s.cd.quad b := fun b hb hne => by
    rw [hy, s.quad_write_pair_ne v0 v1 v2 v3 h hb hne]
  have hdir : y.dir = s.dir := by rw [hframe]
  rw [← hy] at ht
  subst ht
  refine ⟨_, rfl, hquad, hne, fun k _ => ?_, ?_⟩
  · rw [State.setAic]
    dsimp only
    rw [bitAt_setBitAt, areaInCommon_eq, hdir]
    simp
  · rw [hframe]
    rfl

end

/-- Settles O39: each manner writes the two halves of the register and then tests it against WINDOW. -/
theorem fourComponentLoadsIn2d : Obligations.FourComponentLoadsIn2d := by
  intro s a d0 d1 h
  have hload (m : LoadManner) : s.loadCd m a (.two d0 d1) = s.load2dFour m a d0 d1 := if_pos h
  have spec {m : LoadManner} {v0 v1 v2 v3 : Word} (hm : s.load m a (.two d0 d1) = s.loadCd m a (.two d0 d1))
      (hw : s.load2dFour m a d0 d1 = ((s.cdWrite (pairLo a) v0 v1).cdWrite (pairHi a) v2 v3).setAic a) :=
    s.load2dFour_spec v0 v1 v2 v3 h (hm.trans ((hload m).trans hw))
  simp only [List.forall_mem_cons]
  refine ⟨?cla, ?clr, ?clsa, ?clsr, List.forall_mem_nil _⟩
  case cla => exact ⟨_, (spec rfl (by simp [State.load2dFour, LoadManner.relative, LoadManner.size])).imp fun _ hr => ⟨rfl, hr⟩⟩
  case clr => exact ⟨_, (spec rfl rfl).imp fun _ hr => ⟨rfl, hr⟩⟩
  case clsa => exact ⟨_, (spec rfl (by simp [State.load2dFour, LoadManner.relative, LoadManner.size])).imp fun _ hr => ⟨rfl, hr⟩⟩
  case clsr => exact ⟨_, (spec rfl rfl).imp fun _ hr => ⟨rfl, hr⟩⟩

/-! ### CDIR and SELINT (R562, R563) -/

/-- The bits of an eight-bit field of a word, from the left. -/
theorem getMsbD_ofNat_fieldAt (w : Word) {i k : Nat} (hi : i + 7 < 24) (hk : k < 8) :
    (BitVec.ofNat 8 (fieldAt w i (i + 7))).getMsbD k = bitAt w (i + k) := by
  have hlsb : (BitVec.ofNat 8 (fieldAt w i (i + 7))).getMsbD k = (fieldAt w i (i + 7)).testBit (7 - k) := by
    rw [BitVec.getMsbD, BitVec.getLsbD_ofNat]
    simp [hk]
    omega
  rw [hlsb, testBit_fieldAt w _ hi, decide_eq_true (by omega), Bool.true_and]
  congr 1
  omega

/-- Some scope is selected without permit. -/
theorem ClipDiv.violation_iff (c : ClipDiv) : c.violation = true ↔ ∃ j < 8, c.select.getMsbD j = true ∧ c.permit.getMsbD j = false := by
  rw [ClipDiv.violation, decide_eq_true_eq]
  constructor
  · intro h
    by_contra hno
    refine h (BitVec.eq_of_getMsbD_eq fun j hj => ?_)
    rw [BitVec.getMsbD_and, BitVec.getMsbD_not, decide_eq_true hj, Bool.true_and]
    refine Eq.trans ?_ (BitVec.getMsbD_zero (w := 8) (i := j)).symm
    by_contra hbit
    simp only [Bool.and_eq_false_iff, Bool.not_eq_false', not_or, Bool.not_eq_false, Bool.not_eq_true] at hbit
    exact hno ⟨j, hj, hbit⟩
  · rintro ⟨j, hj, hs, hp⟩ h
    have hbit := congrArg (BitVec.getMsbD · j) h
    simp only [BitVec.getMsbD_and, BitVec.getMsbD_not, hs, hp, decide_eq_true hj] at hbit
    exact Bool.noConfusion (hbit.trans BitVec.getMsbD_zero)

/-- A load of SELINT raises the scope violation if the scopes then selected are not all permitted. -/
theorem State.load_selint (s : State) (w0 w1 : Word) : s.load .cla 11 (.two w0 w1) =
    State.raiseIf { s with cd := selintLoad s.cd s.mode w0 w1 } (selintLoad s.cd s.mode w0 w1).violation .scopeViolation := rfl

theorem getMsbD_selintLoad_select (c : ClipDiv) (mode : Mode) (w0 w1 : Word) {k : Nat} (hk : k < 8) :
    (selintLoad c mode w0 w1).select.getMsbD k = if bitAt w0 10 then bitAt w0 (2 + k) else c.select.getMsbD k := by
  rw [selintLoad, apply_ite (BitVec.getMsbD · k)]
  exact congrArg (ite _ · _) (getMsbD_ofNat_fieldAt w0 (by decide) hk)

theorem getMsbD_selintLoad_permit (c : ClipDiv) (mode : Mode) (w0 w1 : Word) {k : Nat} (hk : k < 8) :
    (selintLoad c mode w0 w1).permit.getMsbD k = if mode = .executive then bitAt w0 (11 + k) else c.permit.getMsbD k := by
  rw [selintLoad, apply_ite (BitVec.getMsbD · k)]
  exact congrArg (ite _ · _) (getMsbD_ofNat_fieldAt w0 (by decide) hk)

/-- A condition other than the protection violation leaves PROT_FF. -/
theorem State.raiseIf_frame (s : State) (c : Bool) {k : Cond} (h : k ≠ .memoryProtection) :
    s.raiseIf c k = { s with icr := (s.raiseIf c k).icr, raised := (s.raiseIf c k).raised } := by
  cases c
  · rfl
  · simp [State.raiseIf, State.raise, State.record, h]

theorem State.bitAt_raiseIf_icr (s : State) (c : Bool) (k : Cond) (j : Nat) :
    bitAt (s.raiseIf c k).icr j = (bitAt s.icr j || (c && decide (j = k.bit))) := by
  cases c
  · simp [State.raiseIf]
  · exact bitAt_record_icr s k j

/-- Settles O40. -/
theorem cdirAndSelintLoadUnderTheirTakeBits : Obligations.CdirAndSelintLoadUnderTheirTakeBits := by
  intro s w0 w1
  refine ⟨⟨cdirLoad s.cd.cdir w0, rfl, ?_, ?_, ?_⟩, ?_⟩
  · simp only [List.forall_mem_cons]
    exact ⟨rfl, rfl, rfl, rfl, rfl, List.forall_mem_nil _⟩
  · simp only [List.forall_mem_cons]
    exact ⟨jk_eq .., jk_eq .., jk_eq .., List.forall_mem_nil _⟩
  · simp only [List.forall_mem_cons]
    exact ⟨rfl, rfl, List.forall_mem_nil _⟩
  · rw [State.load_selint, State.raiseIf_frame _ _ (by decide)]
    refine ⟨_, rfl, rfl, fun k hk => getMsbD_selintLoad_select _ _ _ _ hk, fun k hk => getMsbD_selintLoad_permit _ _ _ _ hk, fun k => ?_, rfl⟩
    dsimp only
    rw [State.bitAt_raiseIf_icr, ← ClipDiv.violation_iff, Bool.or_eq_true, Bool.and_eq_true, decide_eq_true_eq, and_comm (a := k = 6)]
    rfl

end Sys2Proof.Machine
end

section
/-!
The memory accesses of one instruction (R114, R126, R436, R437, R493): they depend on little of the state and change only memory and what the
host has seen, so they go the same way in two states that agree on that; and the words a transfer or a point reads or writes, one by one.
-/

namespace Sys2Proof.Machine

/-! ### Two states that agree on memory -/

/-- What memory accesses and the host's accesses between them look at. -/
structure State.SameView (x u : State) : Prop where
  mode : x.mode = u.mode
  params : x.params = u.params
  bar : x.bar = u.bar
  protection : x.protection = u.protection
  mem : x.mem = u.mem
  turns : x.turns = u.turns
  hostSeen : x.hostSeen = u.hostSeen

/-- `x` with what memory accesses may change taken from `v`. -/
def State.withMemory (x v : State) : State := { x with mem := v.mem, turns := v.turns, hostSeen := v.hostSeen }

section

variable {x u v w : State} {a b : Word} {c : Cond}

theorem State.SameView.physical (h : x.SameView u) (a : Word) : x.physical a = u.physical a :=
  State.physical_congr h.mode h.params h.bar h.protection a

theorem State.SameView.memRead (h : x.SameView u) (a : Word) : x.memRead a = u.memRead a :=
  State.memRead_congr h.mode h.params h.bar h.protection h.mem a

theorem State.SameView.withMemory_self (h : x.SameView u) : x.withMemory u = x := by
  rw [State.withMemory, ← h.mem, ← h.turns, ← h.hostSeen]

/-- The view carries over to states that accesses lead to. -/
theorem State.SameView.withMemory (h : x.SameView u) (hv : v = u.withMemory v) : (x.withMemory v).SameView v := by
  obtain ⟨hm, hp, hb, hr, -, -, -⟩ := h
  rw [hv]
  exact ⟨hm, hp, hb, hr, rfl, rfl, rfl⟩

theorem State.SameView.hostAccess (h : x.SameView u) (e : AgentEvent) : x.hostAccess e = x.withMemory (u.hostAccess e) := by
  have hself := h.withMemory_self
  cases e
  case hostRead a =>
    unfold State.hostAccess State.hostRead
    dsimp only
    split
    · simp only [State.withMemory, if_pos, ← h.params, ← h.mem, ← h.turns, ← h.hostSeen, *]
    · rwa [← h.params, if_neg ‹_›, eq_comm]
  case hostWrite a v =>
    unfold State.hostAccess State.hostWrite
    dsimp only
    split
    · simp only [State.withMemory, if_pos, ← h.params, ← h.mem, ← h.turns, ← h.hostSeen, *]
    · rwa [← h.params, if_neg ‹_›, eq_comm]
  all_goals exact hself.symm

theorem State.hostAccess_eq_withMemory (u : State) (e : AgentEvent) : u.hostAccess e = u.withMemory (u.hostAccess e) :=
  State.SameView.hostAccess ⟨rfl, rfl, rfl, rfl, rfl, rfl, rfl⟩ e

theorem State.gap_eq_withMemory (u : State) : u.gap = u.withMemory u.gap := u.gap_frame

theorem State.SameView.foldl_hostAccess (h : x.SameView u) (l : List AgentEvent) :
    l.foldl State.hostAccess x = x.withMemory (l.foldl State.hostAccess u) := by
  induction l generalizing x u with
  | nil => exact h.withMemory_self.symm
  | cons e l ih =>
    rw [List.foldl_cons, List.foldl_cons, h.hostAccess e, ih (h.withMemory (u.hostAccess_eq_withMemory e))]
    rfl

/-- Between two accesses the other agents do the same in both states. -/
theorem State.SameView.gap (h : x.SameView u) : x.gap = x.withMemory u.gap := by
  unfold State.gap State.popTurn
  rw [h.turns]
  split
  · exact h.withMemory_self.symm
  next rest _ =>
    rw [State.SameView.foldl_hostAccess (x := { x with turns := rest }) (u := { u with turns := rest })
      ⟨h.mode, h.params, h.bar, h.protection, h.mem, rfl, h.hostSeen⟩]
    rfl

theorem State.SameView.gap_view (h : x.SameView u) : x.gap.SameView u.gap := by
  rw [h.gap]
  exact h.withMemory u.gap_eq_withMemory

/-! ### Words read and written one by one -/

theorem State.reads_frame {d : Word} {ws : List Word} (h : u.reads a d ws v) : v = u.withMemory v := by
  induction ws generalizing u a with
  | nil => rw [State.reads] at h; rw [h]; rfl
  | cons y ws ih =>
    cases ws with
    | nil => rw [State.reads] at h; rw [h.2]; rfl
    | cons z ws =>
      have hv := ih h.2
      rw [u.gap_frame] at hv
      exact hv

theorem State.SameView.reads {d : Word} {ws : List Word} (h : x.SameView u) (hr : u.reads a d ws v) : x.reads a d ws (x.withMemory v) := by
  induction ws generalizing x u a with
  | nil =>
    rw [State.reads] at hr ⊢
    rw [hr, h.withMemory_self]
  | cons y ws ih =>
    cases ws with
    | nil =>
      rw [State.reads] at hr ⊢
      rw [h.memRead, hr.2, h.withMemory_self]
      exact ⟨hr.1, rfl⟩
    | cons z ws =>
      refine ⟨(h.memRead a).trans hr.1, ?_⟩
      have hx := ih h.gap_view hr.2
      rw [h.gap] at hx
      rwa [h.gap]

theorem State.memWrite_frame (h : u.memWrite a b = .ok v) : v = { u with mem := v.mem } := by
  obtain ⟨p, -, rfl⟩ := State.memWrite_eq_ok.mp h
  rfl

theorem State.SameView.memWrite (h : x.SameView u) (hw : u.memWrite a b = .ok v) : x.memWrite a b = .ok (x.withMemory v) := by
  obtain ⟨p, hp, rfl⟩ := State.memWrite_eq_ok.mp hw
  refine State.memWrite_eq_ok.mpr ⟨p, (h.physical a).trans hp, ?_⟩
  rw [State.withMemory, h.mem]
  dsimp only
  rw [← h.turns, ← h.hostSeen]

theorem State.writes_frame {ws : List Word} (h : u.writes a ws v) : v = u.withMemory v := by
  induction ws generalizing u a with
  | nil => rw [State.writes] at h; rw [h]; rfl
  | cons y ws ih =>
    cases ws with
    | nil => rw [State.memWrite_frame h]; rfl
    | cons z ws =>
      obtain ⟨r, hr, hw⟩ := h
      have hv := ih hw
      rw [r.gap_frame, State.memWrite_frame hr] at hv
      exact hv

theorem State.SameView.writes {ws : List Word} (h : x.SameView u) (hw : u.writes a ws v) : x.writes a ws (x.withMemory v) := by
  induction ws generalizing x u a with
  | nil =>
    rw [State.writes] at hw ⊢
    rw [hw, h.withMemory_self]
  | cons y ws ih =>
    cases ws with
    | nil => exact h.memWrite hw
    | cons z ws =>
      obtain ⟨r, hr, hrest⟩ := hw
      have hview : (x.withMemory r).SameView r := h.withMemory (by rw [State.memWrite_frame hr]; rfl)
      refine ⟨_, h.memWrite hr, ?_⟩
      have hx := ih hview.gap_view hrest
      rw [hview.gap] at hx
      rwa [hview.gap]

end

/-! ### The words of a register or a point (R436, R437, R493) -/

/-- The words `ds` are read one by one from `a` in steps of `d`, and the access after them raises `c` in the state `v`. -/
def State.readStops (s : State) (a d : Word) : List Word → Cond → State → Prop
  | [], c, v => s.memRead a = .error c ∧ v = s
  | y :: ds, c, v => s.memRead a = .ok y ∧ s.gap.readStops (a + d) d ds c v

theorem word_step (a b : Word) (l : Nat) : a + b + BitVec.ofNat 24 l * b = a + BitVec.ofNat 24 (l + 1) * b := by
  rw [BitVec.ofNat_add, BitVec.add_mul, BitVec.add_assoc, BitVec.add_comm b]
  simp

section

variable {s v w : State} {a d : Word} {c : Cond} {ds : List Word}

/-- Words read, and the access after them. -/
theorem State.readStops_of_reads (h : s.reads a d ds w) (hne : ds ≠ []) (hv : v = w.gap)
    (he : v.memRead (a + BitVec.ofNat 24 ds.length * d) = .error c) : s.readStops a d ds c v := by
  induction ds generalizing s a with
  | nil => exact absurd rfl hne
  | cons y ds ih =>
    cases ds with
    | nil =>
      obtain ⟨hy, rfl⟩ := h
      subst hv
      rw [List.length_singleton, BitVec.one_mul] at he
      exact ⟨hy, he, rfl⟩
    | cons z ds =>
      refine ⟨h.1, ih h.2 (List.cons_ne_nil _ _) ?_⟩
      rw [word_step]
      exact he

theorem State.readStops_frame (h : s.readStops a d ds c v) : v = s.withMemory v := by
  induction ds generalizing s a with
  | nil => rw [h.2]; rfl
  | cons y ds ih =>
    have hv := ih h.2
    rw [s.gap_frame] at hv
    exact hv

theorem State.SameView.readStops {x : State} (hx : x.SameView s) (h : s.readStops a d ds c v) : x.readStops a d ds c (x.withMemory v) := by
  induction ds generalizing x s a with
  | nil => exact ⟨(hx.memRead a).trans h.1, by rw [h.2, hx.withMemory_self]⟩
  | cons y ds ih =>
    have hrest := ih hx.gap_view h.2
    rw [hx.gap] at hrest
    exact ⟨(hx.memRead a).trans h.1, by rwa [hx.gap]⟩

section

variable {k : Word} {y : Word}

theorem State.readFirst_ok (h : s.memRead a = .ok y) : s.readFirst a = .ok (y, s) := by rw [State.readFirst, h]

theorem State.readFirst_error (h : s.memRead a = .error c) : s.readFirst a = .error (c, 0, s) := by rw [State.readFirst, h]

theorem State.readNext_ok (h : s.gap.memRead a = .ok y) : s.readNext k a = .ok (y, s.gap) := by rw [State.readNext, h]

theorem State.readNext_error (h : s.gap.memRead a = .error c) : s.readNext k a = .error (c, k, s.gap) := by rw [State.readNext, h]

end

theorem add_two (a : Word) : a + 1 + 1 = a + 2 := by rw [BitVec.add_assoc]; rfl

theorem add_three (a : Word) : a + 1 + 1 + 1 = a + 3 := by rw [add_two, BitVec.add_assoc]; rfl

theorem sub_two (a : Word) : a - 1 + -1 = a - 2 := by bv_omega

theorem sub_three (a : Word) : a - 1 + -1 + -1 = a - 3 := by bv_omega

theorem sub_four (a : Word) : a - 1 + -1 + -1 + -1 = a - 4 := by bv_omega

theorem ok_bind {α β ε : Type} (x : α) (f : α → Except ε β) : (Except.ok x >>= f) = f x := rfl

theorem error_bind {α β ε : Type} (e : ε) (f : α → Except ε β) : (Except.error e >>= f) = .error e := rfl

theorem State.readUp_ok {twoD : Bool} {t : Tuple} (ht : t.is2d = twoD) (h : s.reads a 1 t.words v) : s.readUp twoD a = .ok (t, v) := by
  subst ht
  cases t with
  | two d0 d1 =>
    obtain ⟨h0, h1, rfl⟩ := h
    simp only [State.readUp, State.readFirst_ok h0, State.readNext_ok h1, ok_bind]
    rfl
  | four d0 d1 d2 d3 =>
    obtain ⟨h0, h1, h2, h3, rfl⟩ := h
    rw [add_three] at h3
    rw [add_two] at h2
    simp only [State.readUp, State.readFirst_ok h0, State.readNext_ok h1, State.readNext_ok h2, State.readNext_ok h3, ok_bind]
    rfl

theorem State.readDown_ok {twoD : Bool} {t : Tuple} (ht : t.is2d = twoD) (h : s.reads (a - 1) (-1) t.words.reverse v) :
    s.readDown twoD a = .ok (t, v) := by
  subst ht
  cases t with
  | two d0 d1 =>
    obtain ⟨h1, h0, rfl⟩ := h
    rw [sub_two] at h0
    simp only [State.readDown, State.readFirst_ok h1, State.readNext_ok h0, ok_bind]
    rfl
  | four d0 d1 d2 d3 =>
    obtain ⟨h3, h2, h1, h0, rfl⟩ := h
    rw [sub_four] at h0
    rw [sub_three] at h1
    rw [sub_two] at h2
    simp only [State.readDown, State.readFirst_ok h3, State.readNext_ok h2, State.readNext_ok h1, State.readNext_ok h0, ok_bind]
    rfl

/-- The words NW. -/
theorem length_words (t : Tuple) : t.words.length = if t.is2d then 2 else 4 := by cases t <;> rfl

/-- The lists of fewer than four words. -/
theorem length_lt_four {α : Type} {l : List α} (h : l.length < 4) :
    l = [] ∨ (∃ x, l = [x]) ∨ (∃ x y, l = [x, y]) ∨ ∃ x y z, l = [x, y, z] := by
  match l, h with
  | [], _ => simp
  | [x], _ => simp
  | [x, y], _ => simp
  | [x, y, z], _ => simp

theorem State.readUp_stops {twoD : Bool} (h : s.readStops a 1 ds c v) (hl : ds.length < if twoD then 2 else 4) :
    s.readUp twoD a = .error (c, BitVec.ofNat 24 ds.length, v) := by
  rcases length_lt_four (lt_of_lt_of_le hl (by split <;> decide)) with rfl | ⟨d0, rfl⟩ | ⟨d0, d1, rfl⟩ | ⟨d0, d1, d2, rfl⟩
  case inl =>
    obtain ⟨h0, rfl⟩ := h
    simp only [State.readUp, State.readFirst_error h0, error_bind]
    rfl
  case inr.inl =>
    obtain ⟨h0, h1, rfl⟩ := h
    simp only [State.readUp, State.readFirst_ok h0, State.readNext_error h1, ok_bind, error_bind]
    rfl
  case inr.inr.inl =>
    obtain ⟨h0, h1, h2, rfl⟩ := h
    cases twoD
    case true => simp at hl
    rw [add_two] at h2
    simp only [State.readUp, State.readFirst_ok h0, State.readNext_ok h1, State.readNext_error h2, ok_bind, error_bind]
    rfl
  case inr.inr.inr =>
    obtain ⟨h0, h1, h2, h3, rfl⟩ := h
    cases twoD
    case true => simp at hl
    rw [add_three] at h3
    rw [add_two] at h2
    simp only [State.readUp, State.readFirst_ok h0, State.readNext_ok h1, State.readNext_ok h2, State.readNext_error h3, ok_bind,
      error_bind]
    rfl

theorem State.readDown_stops {twoD : Bool} (h : s.readStops (a - 1) (-1) ds c v) (hl : ds.length < if twoD then 2 else 4) :
    s.readDown twoD a = .error (c, BitVec.ofNat 24 ds.length, v) := by
  rcases length_lt_four (lt_of_lt_of_le hl (by split <;> decide)) with rfl | ⟨d0, rfl⟩ | ⟨d0, d1, rfl⟩ | ⟨d0, d1, d2, rfl⟩
  case inl =>
    obtain ⟨h0, rfl⟩ := h
    simp only [State.readDown, State.readFirst_error h0, error_bind]
    rfl
  case inr.inl =>
    obtain ⟨h0, h1, rfl⟩ := h
    rw [sub_two] at h1
    simp only [State.readDown, State.readFirst_ok h0, State.readNext_error h1, ok_bind, error_bind]
    rfl
  case inr.inr.inl =>
    obtain ⟨h0, h1, h2, rfl⟩ := h
    cases twoD
    case true => simp at hl
    rw [sub_three] at h2
    rw [sub_two] at h1
    simp only [State.readDown, State.readFirst_ok h0, State.readNext_ok h1, State.readNext_error h2, ok_bind, error_bind]
    rfl
  case inr.inr.inr =>
    obtain ⟨h0, h1, h2, h3, rfl⟩ := h
    cases twoD
    case true => simp at hl
    rw [sub_four] at h3
    rw [sub_three] at h2
    rw [sub_two] at h1
    simp only [State.readDown, State.readFirst_ok h0, State.readNext_ok h1, State.readNext_ok h2, State.readNext_error h3, ok_bind,
      error_bind]
    rfl

/-! ### Words with no other agent acting -/

/-- Where no other agent acts, the words that memory holds are read, and nothing changes. -/
theorem State.reads_of_wordsAt (ht : s.turns = []) (h : s.wordsAt a ds) : s.reads a 1 ds s := by
  induction ds generalizing a with
  | nil => rfl
  | cons y ds ih =>
    have hy : s.memRead a = .ok y := by simpa using h 0 (Nat.succ_pos _)
    have hds : s.wordsAt (a + 1) ds := fun k hk => by
      have := h (k + 1) (Nat.succ_lt_succ hk)
      rwa [BitVec.ofNat_add, BitVec.add_comm (BitVec.ofNat 24 k), ← BitVec.add_assoc] at this
    cases ds with
    | nil => exact ⟨hy, rfl⟩
    | cons z ds => exact ⟨hy, by rw [State.gap_nil ht]; exact ih hds⟩

/-- Words given by their positions, in any direction, and the access after them. -/
theorem State.readStops_of_forall (ht : s.turns = []) (h : ∀ (l : Nat) (hl : l < ds.length), s.memRead (a + BitVec.ofNat 24 l * d) = .ok ds[l])
    (he : s.memRead (a + BitVec.ofNat 24 ds.length * d) = .error c) : s.readStops a d ds c s := by
  induction ds generalizing a with
  | nil =>
    simp only [List.length_nil, BitVec.zero_mul, BitVec.add_zero] at he
    exact ⟨he, rfl⟩
  | cons y ds ih =>
    have hy : s.memRead a = .ok y := by simpa using h 0 (Nat.succ_pos _)
    refine ⟨hy, ?_⟩
    rw [State.gap_nil ht]
    refine ih (fun l hl => ?_) ?_
    · rw [word_step]
      exact h (l + 1) (Nat.succ_lt_succ hl)
    · rw [word_step]
      exact he

theorem State.reads_of_forall (ht : s.turns = []) (h : ∀ (l : Nat) (hl : l < ds.length), s.memRead (a + BitVec.ofNat 24 l * d) = .ok ds[l]) :
    s.reads a d ds s := by
  induction ds generalizing a with
  | nil => rfl
  | cons y ds ih =>
    have hy : s.memRead a = .ok y := by simpa using h 0 (Nat.succ_pos _)
    have hds := ih (a := a + d) fun l hl => by
      rw [word_step]
      exact h (l + 1) (Nat.succ_lt_succ hl)
    cases ds with
    | nil => exact ⟨hy, rfl⟩
    | cons z ds => exact ⟨hy, by rw [State.gap_nil ht]; exact hds⟩

/-! ### Words written -/

section

variable {y : Word} {ys : List Word} {t : State}

theorem State.writeUp_error (h : s.memWrite a y = .error c) : s.writeUp a (y :: ys) = (s, some c) := by
  unfold State.writeUp
  simp only [h]

theorem State.writeUp_last (h : s.memWrite a y = .ok t) : s.writeUp a [y] = (t, none) := by
  unfold State.writeUp
  simp only [h]

theorem State.writeUp_next {z : Word} (h : s.memWrite a y = .ok t) : s.writeUp a (y :: z :: ys) = t.gap.writeUp (a + 1) (z :: ys) := by
  conv_lhs => unfold State.writeUp
  simp only [h]

end

theorem State.writeUp_ok {ws : List Word} (h : s.writes a ws v) : s.writeUp a ws = (v, none) := by
  induction ws generalizing s a with
  | nil =>
    rw [State.writes] at h
    rw [h]
    rfl
  | cons y ws ih =>
    cases ws with
    | nil => exact State.writeUp_last h
    | cons z ws =>
      obtain ⟨r, hr, hrest⟩ := h
      rw [State.writeUp_next hr]
      exact ih hrest

theorem State.writes_turns_nil {ws : List Word} (ht : s.turns = []) (h : s.writes a ws v) : v.turns = [] := by
  induction ws generalizing s a with
  | nil =>
    rw [State.writes] at h
    rwa [h]
  | cons y ws ih =>
    have hkeep {r : State} (hr : s.memWrite a y = .ok r) : r.turns = [] := by rwa [State.memWrite_frame hr]
    cases ws with
    | nil => exact hkeep h
    | cons z ws =>
      obtain ⟨r, hr, hrest⟩ := h
      exact ih (by rw [State.gap_nil (hkeep hr)]; exact hkeep hr) hrest

theorem word_add_step (a : Word) (l : Nat) : a + 1 + BitVec.ofNat 24 l = a + BitVec.ofNat 24 (l + 1) := by
  rw [BitVec.ofNat_add, BitVec.add_assoc, BitVec.add_comm 1]
  rfl

/-- Where no other agent acts, writing two lists is writing one after the other. -/
theorem State.writes_append {xs ys : List Word} (ht : s.turns = []) (h : s.writes a (xs ++ ys) v) :
    ∃ r, s.writes a xs r ∧ r.writes (a + BitVec.ofNat 24 xs.length) ys v := by
  induction xs generalizing s a with
  | nil => exact ⟨s, rfl, by simpa using h⟩
  | cons y xs ih =>
    cases hys : xs ++ ys with
    | nil =>
      obtain ⟨rfl, rfl⟩ := List.append_eq_nil_iff.mp hys
      exact ⟨v, h, rfl⟩
    | cons z zs =>
      rw [List.cons_append, hys] at h
      obtain ⟨r, hr, hrest⟩ := h
      have hrt : r.turns = [] := by rwa [State.memWrite_frame hr]
      rw [← hys, State.gap_nil hrt] at hrest
      obtain ⟨q, hq, hqs⟩ := ih hrt hrest
      refine ⟨q, ?_, ?_⟩
      · cases xs with
        | nil =>
          obtain rfl : q = r := hq
          exact hr
        | cons x xs => exact ⟨r, hr, by rwa [State.gap_nil hrt]⟩
      · rwa [List.length_cons, ← word_add_step]

/-- Where no other agent acts, a word that cannot be written leaves those before it written. -/
theorem State.writeUp_stops {xs ys : List Word} (ht : s.turns = []) (h : s.writes a xs v)
    (he : s.physical (a + BitVec.ofNat 24 xs.length) = .error c) (hne : ys ≠ []) : s.writeUp a (xs ++ ys) = (v, some c) := by
  obtain ⟨y, ys, rfl⟩ := List.exists_cons_of_ne_nil hne
  induction xs generalizing s a with
  | nil =>
    rw [State.writes] at h
    have he' : s.memWrite a y = .error c := State.memWrite_eq_error.mpr (by simpa using he)
    rw [List.nil_append, State.writeUp_error he', h]
  | cons x xs ih =>
    obtain ⟨r, hr, hrest⟩ : ∃ r, s.memWrite a x = .ok r ∧ r.writes (a + 1) xs v := by
      cases xs with
      | nil => exact ⟨v, h, rfl⟩
      | cons z xs =>
        obtain ⟨r, hr, hrest⟩ := h
        have hrt : r.turns = [] := by rwa [State.memWrite_frame hr]
        exact ⟨r, hr, by rwa [State.gap_nil hrt] at hrest⟩
    have hrt : r.turns = [] := by rwa [State.memWrite_frame hr]
    have hphys : r.physical (a + 1 + BitVec.ofNat 24 xs.length) = .error c := by
      rw [word_add_step, State.memWrite_frame hr]
      exact he
    have hxs := ih hrt hrest hphys
    cases hl : xs ++ y :: ys with
    | nil => simp at hl
    | cons z zs =>
      rwa [List.cons_append, hl, State.writeUp_next hr, State.gap_nil hrt, ← hl]

end

end Sys2Proof.Machine
end

section
/-!
The load/unload instructions (R430 to R479): the registers and REPEAT STATUS beside what a load or an unload does to the pipeline, one iteration
of a sequence, and the counted loop.
-/

namespace Sys2Proof.Machine

/-! ### REPEAT STATUS (R53, R438) -/

section

variable (s : State) (st sink : Bool) (dm : Nat) (a : DevAddr)

theorem State.beginTransfer_type : fieldAt (s.beginTransfer st sink dm a).rsr 2 4 = 3 := by
  simp only [State.beginTransfer]
  rw [fieldAt_setBitAt_of_disjoint _ _ (by decide) (by decide), fieldAt_setFieldAt_of_disjoint _ _ (by decide) (by decide) (by decide),
    fieldAt_setFieldAt_of_disjoint _ _ (by decide) (by decide) (by decide),
    fieldAt_setFieldAt_of_disjoint _ _ (by decide) (by decide) (by decide), fieldAt_setBitAt_of_disjoint _ _ (by decide) (by decide),
    fieldAt_setBitAt_of_disjoint _ _ (by decide) (by decide), fieldAt_setFieldAt_self _ _ (by decide)]
  rfl

theorem State.beginTransfer_repeatBit : (s.beginTransfer st sink dm a).repeatBit = true := by
  simp [State.beginTransfer, State.repeatBit]

theorem State.setRsrAddress_type : fieldAt (s.setRsrAddress a).rsr 2 4 = fieldAt s.rsr 2 4 :=
  fieldAt_setFieldAt_of_disjoint _ _ (by decide) (by decide) (by decide)

theorem State.setRsrAddress_address : fieldAt (s.setRsrAddress a).rsr 19 22 = a.val := by
  rw [State.setRsrAddress, fieldAt_setFieldAt_self _ _ (by decide)]
  exact Nat.mod_eq_of_lt a.isLt

theorem State.setRsrAddress_repeatBit : (s.setRsrAddress a).repeatBit = s.repeatBit :=
  bitAt_setFieldAt_of_disjoint _ _ (by decide) (by decide) (by decide)

theorem State.endRepeat_type : fieldAt s.endRepeat.rsr 2 4 = fieldAt s.rsr 2 4 :=
  fieldAt_setBitAt_of_disjoint _ _ (by decide) (by decide)

theorem State.endRepeat_address : fieldAt s.endRepeat.rsr 19 22 = fieldAt s.rsr 19 22 :=
  fieldAt_setBitAt_of_disjoint _ _ (by decide) (by decide)

theorem State.endRepeat_repeatBit : s.endRepeat.repeatBit = false := by
  simp [State.endRepeat, State.repeatBit]

end

/-! ### The registers and REPEAT STATUS apart -/

/-- `s` with other registers of the Channel Control and another REPEAT STATUS. -/
def State.withCounters (s : State) (regs : Vector Word 16) (rsr : Word) : State := { s with regs := regs, rsr := rsr }

/-- `x` is `z` but for its registers and its REPEAT STATUS. -/
def State.SameBesideCounters (x z : State) : Prop := x = z.withCounters x.regs x.rsr

section

variable (s : State) (regs : Vector Word 16) (rsr : Word)

theorem State.raiseIf_withCounters (c : Bool) (k : Cond) :
    (s.withCounters regs rsr).raiseIf c k = (s.raiseIf c k).withCounters regs rsr := by
  cases c <;> rfl

theorem State.cdWrite_withCounters (r : DevAddr) (v0 v1 : Word) :
    (s.withCounters regs rsr).cdWrite r v0 v1 = (s.cdWrite r v0 v1).withCounters regs rsr := by
  unfold State.cdWrite
  split
  case h_12 =>
    exact State.raiseIf_withCounters { s with cd := selintLoad s.cd s.mode v0 v1 } regs rsr _ .scopeViolation
  all_goals rfl

theorem State.setMmRow_withCounters (a : DevAddr) (d : Tuple) :
    (s.withCounters regs rsr).setMmRow a d = (s.setMmRow a d).withCounters regs rsr := by
  cases d <;> rfl

theorem State.loadCd_withCounters (m : LoadManner) (a : DevAddr) (d : Tuple) :
    (s.withCounters regs rsr).loadCd m a d = (s.loadCd m a d).withCounters regs rsr := by
  cases d with
  | two d0 d1 =>
    unfold State.loadCd
    dsimp only
    split
    next =>
      unfold State.load2dFour
      simp only [State.cdWrite_withCounters]
      rfl
    next =>
      split <;> exact State.cdWrite_withCounters ..
  | four d0 d1 d2 d3 =>
    unfold State.loadCd
    simp only [State.cdWrite_withCounters]
    rfl

theorem State.load_withCounters (m : LoadManner) (a : DevAddr) (d : Tuple) :
    (s.withCounters regs rsr).load m a d = (s.load m a d).withCounters regs rsr := by
  cases m
  case cla | clr | clsa | clsr => exact s.loadCd_withCounters regs rsr _ a d
  case mm | mmr | mmp => exact s.setMmRow_withCounters regs rsr _ _
  case mdr => cases d <;> rfl

theorem State.copyRow_withCounters (twoD : Bool) (src dst : DevAddr) :
    (s.withCounters regs rsr).copyRow twoD src dst = (s.copyRow twoD src dst).withCounters regs rsr :=
  s.setMmRow_withCounters regs rsr _ _

end

/-! ### What a load leaves unchanged -/

/-- Nothing changes but the registers of the pipeline, the status bits of DIRECTIVE, and the scope violation raised; the dimension stays. -/
structure State.OnlyPipeline (s t : State) : Prop where
  frame : t = { s with cd := t.cd, mm := t.mm, mdir := t.mdir, dir := t.dir, icr := t.icr, raised := t.raised }
  dim : t.dim = s.dim

section

variable {s t w : State}

theorem State.OnlyPipeline.trans (h : s.OnlyPipeline t) (h' : t.OnlyPipeline w) : s.OnlyPipeline w := by
  refine ⟨?_, h'.dim.trans h.dim⟩
  rw [h'.frame, h.frame]

theorem State.OnlyPipeline.view (h : s.OnlyPipeline t) : t.SameView s := by
  rw [h.frame]
  exact ⟨rfl, rfl, rfl, rfl, rfl, rfl, rfl⟩

theorem State.onlyPipeline_raiseIf (s : State) (c : Bool) {k : Cond} (h : k ≠ .memoryProtection) : s.OnlyPipeline (s.raiseIf c k) := by
  refine ⟨by rw [s.raiseIf_frame c h], ?_⟩
  cases c <;> rfl

theorem State.onlyPipeline_cdWrite (s : State) (r : DevAddr) (v0 v1 : Word) : s.OnlyPipeline (s.cdWrite r v0 v1) := by
  unfold State.cdWrite
  split
  case h_12 =>
    exact State.OnlyPipeline.trans (t := { s with cd := selintLoad s.cd s.mode v0 v1 }) ⟨rfl, rfl⟩
      (State.onlyPipeline_raiseIf _ (selintLoad s.cd s.mode v0 v1).violation (k := .scopeViolation) (by decide))
  all_goals exact ⟨rfl, rfl⟩

theorem State.onlyPipeline_setMmRow (s : State) (a : DevAddr) (d : Tuple) : s.OnlyPipeline (s.setMmRow a d) := by
  rw [s.setMmRow_frame a d]
  exact ⟨rfl, rfl⟩

theorem State.onlyPipeline_setAic (s : State) (a : DevAddr) : s.OnlyPipeline (s.setAic a) :=
  ⟨rfl, by simp [State.dim, State.setAic]⟩

theorem State.onlyPipeline_loadCd (s : State) (m : LoadManner) (a : DevAddr) (d : Tuple) : s.OnlyPipeline (s.loadCd m a d) := by
  cases d with
  | two d0 d1 =>
    unfold State.loadCd
    dsimp only
    split
    · exact ((s.onlyPipeline_cdWrite ..).trans (State.onlyPipeline_cdWrite ..)).trans (State.onlyPipeline_setAic ..)
    · split <;> exact s.onlyPipeline_cdWrite ..
  | four d0 d1 d2 d3 => exact (s.onlyPipeline_cdWrite ..).trans (State.onlyPipeline_cdWrite ..)

theorem State.onlyPipeline_load (s : State) (m : LoadManner) (a : DevAddr) (d : Tuple) : s.OnlyPipeline (s.load m a d) := by
  cases m
  case cla | clr | clsa | clsr => exact s.onlyPipeline_loadCd _ a d
  case mm | mmr | mmp => exact s.onlyPipeline_setMmRow _ _
  case mdr => cases d <;> exact ⟨rfl, rfl⟩

theorem State.onlyPipeline_copyRow (s : State) (twoD : Bool) (src dst : DevAddr) : s.OnlyPipeline (s.copyRow twoD src dst) :=
  s.onlyPipeline_setMmRow _ _

end

/-! ### The counted loop (R436 to R438) -/

section

variable {act : Action} {st sink : Bool} {a : DevAddr} {x y : State} {c : Cond} {n : Nat}

theorem State.transferLoop_error (h : (x.setRsrAddress a).transferOnce act sink a = (y, some c)) :
    State.transferLoop act st sink (n + 1) a x = y.raise c := by
  rw [State.transferLoop, h]

theorem State.transferLoop_uncounted (h : (x.setRsrAddress a).transferOnce act sink a = (y, none)) (hrc : bitAt (y.reg Reg.rc) 0 = false) :
    State.transferLoop act st sink (n + 1) a x = y.endRepeat := by
  rw [State.transferLoop, h]
  dsimp only
  rw [hrc]
  rfl

theorem State.transferLoop_last (h : (x.setRsrAddress a).transferOnce act sink a = (y, none)) (hrc : bitAt (y.reg Reg.rc) 0 = true)
    (hz : y.reg Reg.rc + 1 = 0) :
    State.transferLoop act st sink (n + 1) a x = (y.setReg Reg.rc (y.reg Reg.rc + 1)).endRepeat := by
  rw [State.transferLoop, h]
  dsimp only
  rw [if_pos hrc, if_pos hz]

theorem State.transferLoop_next (h : (x.setRsrAddress a).transferOnce act sink a = (y, none)) (hrc : bitAt (y.reg Reg.rc) 0 = true)
    (hz : y.reg Reg.rc + 1 ≠ 0) : State.transferLoop act st sink (n + 1) a x =
      State.transferLoop act st sink n (nextAddress st sink a) (y.setReg Reg.rc (y.reg Reg.rc + 1)).turn := by
  rw [State.transferLoop, h]
  dsimp only
  rw [if_pos hrc, if_neg hz]

end

/-- One iteration at register address `a` is done: the pipeline and memory are those of `content`, the pointer `p` stands at `ptr`, and REPEAT
STATUS has the address. -/
structure State.OnceDone (x y : State) (a : DevAddr) (p : Reg) (content : State) (ptr : Word) : Prop where
  content : y.SameBesideCounters content
  rsr : y.rsr = (x.setRsrAddress a).rsr
  pointer : y.reg p = ptr
  others : ∀ q, q ≠ p → y.reg q = x.reg q

/-- A sequence begun in `u` after `j` of its iterations: what iterations leave is `content`, where the pointer `p` stands `ptr`, and the addresses
`r`. -/
structure State.Moved (u : State) (p : Reg) (content : Nat → State) (ptr : Nat → Word) (r : Nat → DevAddr) (j : Nat) (x : State) : Prop where
  content : x.SameBesideCounters (content j)
  pointer : x.reg p = ptr j
  others : ∀ q, q ≠ Reg.rc → q ≠ p → x.reg q = u.reg q
  type : fieldAt x.rsr 2 4 = 3
  repeatBit : x.repeatBit = true
  address : ∀ i, j = i + 1 → fieldAt x.rsr 19 22 = (r i).val

section

variable {u x y : State} {p : Reg} {content : Nat → State} {ptr : Nat → Word} {r : Nat → DevAddr} {j n k : Nat}
  {act : Action} {st sink : Bool} {dm : Nat}

/-- An iteration takes the sequence one further, whatever the counter does. -/
theorem State.Moved.succ (hp : p ≠ Reg.rc) (h : u.Moved p content ptr r j x) (hy : x.OnceDone y (r j) p (content (j + 1)) (ptr (j + 1)))
    (v : Word) : u.Moved p content ptr r (j + 1) (y.setReg Reg.rc v) where
  content := congrArg (State.setReg · Reg.rc v) hy.content
  pointer := by rw [State.reg_setReg, if_neg hp, hy.pointer]
  others q hrc hq := by rw [State.reg_setReg, if_neg hrc, hy.others q hq, h.others q hrc hq]
  type := (congrArg (fieldAt · 2 4) hy.rsr).trans ((x.setRsrAddress_type _).trans h.type)
  repeatBit := (congrArg (bitAt · 23) hy.rsr).trans ((x.setRsrAddress_repeatBit _).trans h.repeatBit)
  address i hi := by
    obtain rfl : j = i := Nat.succ_inj.mp hi
    exact (congrArg (fieldAt · 19 22) hy.rsr).trans (x.setRsrAddress_address _)

theorem State.Moved.zero (u : State) (p : Reg) (hc : content 0 = u) (hptr : ptr 0 = u.reg p) (st sink : Bool) (dm : Nat) (a : DevAddr) :
    u.Moved p content ptr r 0 (u.beginTransfer st sink dm a) where
  content := by rw [hc]; rfl
  pointer := hptr.symm
  others _ _ _ := rfl
  type := u.beginTransfer_type ..
  repeatBit := u.beginTransfer_repeatBit ..
  address _ hi := nomatch hi

/-- The counter of a sequence of `n` iterations before its `j`-th. -/
theorem counter_negative {rc : Word} (h : rc.toNat + n = 16777216) (hneg : bitAt rc 0 = true) (hj : j < n) :
    bitAt (rc + BitVec.ofNat 24 j) 0 = true ∧ (rc + BitVec.ofNat 24 j + 1 = 0 ↔ j + 1 = n) := by
  have hrc : 8388608 ≤ rc.toNat := by
    rw [bitAt_zero_eq, decide_eq_true_eq, BitVec.toInt_eq_toNat_cond] at hneg
    split at hneg <;> omega
  have hadd : (rc + BitVec.ofNat 24 j).toNat = rc.toNat + j := by
    rw [BitVec.toNat_add, BitVec.toNat_ofNat]
    omega
  constructor
  · rw [bitAt_zero_eq, decide_eq_true_eq, BitVec.toInt_eq_toNat_cond, hadd]
    split <;> omega
  · rw [← BitVec.toNat_inj, BitVec.toNat_add, hadd]
    change (_ + 1) % 16777216 = 0 ↔ _
    omega

/-- The iterations before the last of a counted sequence. -/
theorem State.Moved.iterate (hp : p ≠ Reg.rc) (hnext : ∀ j, r (j + 1) = nextAddress st sink (r j))
    (hturns : ∀ j, 0 < j → j ≤ k → (content j).turns = [])
    (honce : ∀ j < k, ∀ x, u.Moved p content ptr r j x → ∃ y, (x.setRsrAddress (r j)).transferOnce act sink (r j) = (y, none) ∧
      x.OnceDone y (r j) p (content (j + 1)) (ptr (j + 1)))
    (h0 : u.Moved p content ptr r 0 x) (hrc : (x.reg Reg.rc).toNat + n = 16777216) (hneg : bitAt (x.reg Reg.rc) 0 = true) (hk : k < n) :
    ∃ z, u.Moved p content ptr r k z ∧ z.reg Reg.rc = x.reg Reg.rc + BitVec.ofNat 24 k ∧
      State.transferLoop act st sink n (r 0) x = State.transferLoop act st sink (n - k) (r k) z := by
  induction k with
  | zero => exact ⟨x, h0, by simp, rfl⟩
  | succ k ih =>
    obtain ⟨z, hz, hzrc, hloop⟩ := ih (fun j h0 hj => hturns j h0 (hj.trans (Nat.le_succ k))) (fun j hj => honce j (hj.trans (Nat.lt_succ_self k)))
      (Nat.lt_of_succ_lt hk)
    obtain ⟨y, hy, hdone⟩ := honce k (Nat.lt_succ_self k) z hz
    have hyrc : y.reg Reg.rc = x.reg Reg.rc + BitVec.ofNat 24 k := (hdone.others _ hp.symm).trans hzrc
    obtain ⟨hbit, hlast⟩ := counter_negative hrc hneg (Nat.lt_of_succ_lt hk)
    have hmoved := hz.succ hp hdone (y.reg Reg.rc + 1)
    have hquiet : (y.setReg Reg.rc (y.reg Reg.rc + 1)).turns = [] := by
      rw [hmoved.content]
      exact hturns (k + 1) (Nat.succ_pos k) le_rfl
    refine ⟨_, hmoved, ?_, ?_⟩
    · rw [State.reg_setReg, if_pos rfl, hyrc, BitVec.ofNat_add, BitVec.add_assoc]
      rfl
    · rw [hloop, show n - k = n - (k + 1) + 1 by omega, State.transferLoop_next hy (hyrc ▸ hbit) (by rw [hyrc, Ne, hlast]; omega),
        State.turn_nil hquiet, hnext]

theorem iterations_of_counted (h : u.counted n) : iterations (u.reg Reg.rc) = n := by
  obtain ⟨-, hneg, hrc⟩ := h
  rw [iterations, if_pos hneg]
  omega

theorem iterations_of_oneRegister (h : u.oneRegister) : iterations (u.reg Reg.rc) = 1 := by
  rw [iterations, if_neg (by rw [h.2]; decide)]

/-- The iterations before one that may fail, for a counted sequence or a single register. -/
theorem State.asksFor.iterate (hask : u.asksFor n) (hp : p ≠ Reg.rc) (hnext : ∀ j, r (j + 1) = nextAddress st sink (r j))
    (hc : content 0 = u) (hptr : ptr 0 = u.reg p) (hturns : ∀ j, 0 < j → j ≤ k → (content j).turns = [])
    (honce : ∀ j < k, ∀ x, u.Moved p content ptr r j x → ∃ y, (x.setRsrAddress (r j)).transferOnce act sink (r j) = (y, none) ∧
      x.OnceDone y (r j) p (content (j + 1)) (ptr (j + 1))) (hk : k < n) :
    ∃ z m, u.Moved p content ptr r k z ∧ z.reg Reg.rc = u.reg Reg.rc + BitVec.ofNat 24 k ∧
      State.transferLoop act st sink (iterations (u.reg Reg.rc)) (r 0) (u.beginTransfer st sink dm (r 0)) =
        State.transferLoop act st sink (m + 1) (r k) z := by
  have h0 := State.Moved.zero (r := r) u p hc hptr st sink dm (r 0)
  rcases hask with hcount | ⟨hone, rfl⟩
  · obtain ⟨z, hz, hzrc, hloop⟩ := State.Moved.iterate hp hnext hturns honce h0 hcount.2.2 hcount.2.1 hk
    exact ⟨z, n - k - 1, hz, hzrc, by rw [iterations_of_counted hcount, hloop, show n - k - 1 + 1 = n - k by omega]⟩
  · obtain rfl : k = 0 := by omega
    exact ⟨_, 0, h0, by rw [BitVec.add_zero]; rfl, by rw [iterations_of_oneRegister hone]⟩

/-- A sequence has at least one iteration. -/
theorem State.asksFor.pos (h : u.asksFor n) : 0 < n := by
  rcases h with ⟨-, -, h⟩ | ⟨-, rfl⟩
  · have := (u.reg Reg.rc).isLt
    omega
  · exact one_pos

/-- All iterations of a counted sequence or of a single register. -/
theorem State.asksFor.finish (hask : u.asksFor n) (hp : p ≠ Reg.rc) (hnext : ∀ j, r (j + 1) = nextAddress st sink (r j))
    (hc : content 0 = u) (hptr : ptr 0 = u.reg p) (hturns : ∀ j, 0 < j → j < n → (content j).turns = [])
    (honce : ∀ j < n, ∀ x, u.Moved p content ptr r j x → ∃ y, (x.setRsrAddress (r j)).transferOnce act sink (r j) = (y, none) ∧
      x.OnceDone y (r j) p (content (j + 1)) (ptr (j + 1))) :
    ∃ z, u.Moved p content ptr r n z ∧ z.reg Reg.rc = (if bitAt (u.reg Reg.rc) 0 then 0 else u.reg Reg.rc) ∧
      State.transferLoop act st sink (iterations (u.reg Reg.rc)) (r 0) (u.beginTransfer st sink dm (r 0)) = z.endRepeat := by
  obtain ⟨k, rfl⟩ : ∃ k, n = k + 1 := Nat.exists_eq_succ_of_ne_zero hask.pos.ne'
  obtain ⟨z, m, hz, hzrc, hloop⟩ :=
    hask.iterate (dm := dm) hp hnext hc hptr (fun j h0 hj => hturns j h0 (Nat.lt_succ_of_le hj))
      (fun j hj => honce j (hj.trans (Nat.lt_succ_self k))) (Nat.lt_succ_self k)
  obtain ⟨y, hy, hdone⟩ := honce k (Nat.lt_succ_self k) z hz
  have hyrc : y.reg Reg.rc = u.reg Reg.rc + BitVec.ofNat 24 k := (hdone.others _ hp.symm).trans hzrc
  rcases hask with ⟨-, hneg, hcount⟩ | ⟨hone, hk⟩
  · obtain ⟨hbit, hlast⟩ := counter_negative hcount hneg (Nat.lt_succ_self k)
    have hzero : y.reg Reg.rc + 1 = 0 := by rw [hyrc, hlast]
    refine ⟨_, hz.succ hp hdone (y.reg Reg.rc + 1), ?_, ?_⟩
    · rw [State.reg_setReg, if_pos rfl, if_pos hneg, hzero]
    · rw [hloop, State.transferLoop_last hy (hyrc ▸ hbit) hzero]
  · obtain rfl : k = 0 := by omega
    rw [BitVec.add_zero] at hyrc
    have hmoved := hz.succ hp hdone (y.reg Reg.rc)
    rw [State.setReg_reg] at hmoved
    refine ⟨y, hmoved, ?_, ?_⟩
    · rw [hyrc, if_neg (by rw [hone.2]; decide)]
    · rw [hloop, State.transferLoop_uncounted hy (by rw [hyrc, hone.2])]

end

/-! ### Instructions of a sequence (R421, R423, R438) -/

/-- With nothing to resume, a load/unload instruction begins the sequence it names. -/
theorem State.startTransfer_begin {s u : State} (hu : u = s.settle) (hr : u.repeatBit = false) (form : TransferForm) (c : DrawClass)
    (st sink : Bool) (dm : Nat) (a : DevAddr) :
    s.startTransfer form c st sink dm a = (u.beginTransfer st sink dm a).runTransfer form st sink dm a := by
  subst hu
  rw [State.startTransfer, hr]
  rfl

theorem State.asksFor.repeatBit {u : State} {n : Nat} (h : u.asksFor n) : u.repeatBit = false := by
  rcases h with h | h
  · exact h.1
  · exact h.1.1

/-- With nothing to resume, an instruction through RP or DSP runs the counted loop. -/
theorem State.startTransfer_loop {s u : State} (hu : u = s.settle) (hr : u.repeatBit = false) {act : Action} {st sink : Bool} {dm : Nat}
    (hact : actionOf st sink dm = some act) (hn : act ≠ .normalize) (c : DrawClass) (a : DevAddr) :
    s.startTransfer .pointer c st sink dm a =
      State.transferLoop act st sink (iterations (u.reg Reg.rc)) a (u.beginTransfer st sink dm a) := by
  rw [State.startTransfer_begin hu hr, State.runTransfer, hact]
  cases act
  case normalize => exact absurd rfl hn
  all_goals rfl

end Sys2Proof.Machine
end

section
/-!
The statements about loads, retrieves, stores, sinks, pushes, pops and the normalisation (R430 to R479): each iteration by what it reads or writes,
then the loop.
-/

namespace Sys2Proof.Machine

/-! ### One register loaded (R436, R437, R472) -/

/-- The action of a load or retrieve, with the slide or without. -/
def loadAction (m : LoadManner) (slide : Bool) : Action := if slide then .retrieveSlide else .load m

/-- What a load or retrieve does to the pipeline: the slide, if there is one, then the load. -/
def State.loadStep (twoD slide : Bool) (m : LoadManner) (a : DevAddr) (d : Tuple) (s : State) : State :=
  (if slide then s.copyRow twoD a (rowOfA a) else s).load m a d

/-- The pointer register of a load or retrieve. -/
def loadPointer (down : Bool) : Reg := if down then Reg.dsp else Reg.rp

/-- The pointer after NW words. -/
def pointerAfter (down twoD : Bool) (a : Word) : Word := if down then a - (if twoD then 2 else 4) else a + (if twoD then 2 else 4)

/-- The words of a register are read upward from the pointer, or down from the word below it. -/
def State.readsTuple (s : State) (down : Bool) (a : Word) (d : Tuple) (v : State) : Prop :=
  if down then s.reads (a - 1) (-1) d.words.reverse v else s.reads a 1 d.words v

section

variable {s x z v : State} {m : LoadManner} {a : DevAddr} {d : Tuple} {down slide : Bool}

theorem State.loadStep_withCounters (s : State) (regs : Vector Word 16) (rsr : Word) (twoD slide : Bool) (m : LoadManner) (a : DevAddr)
    (d : Tuple) : (s.withCounters regs rsr).loadStep twoD slide m a d = (s.loadStep twoD slide m a d).withCounters regs rsr := by
  cases slide
  · exact s.load_withCounters ..
  · exact (congrArg (State.load · m a d) (s.copyRow_withCounters ..)).trans (State.load_withCounters ..)

theorem State.onlyPipeline_loadStep (s : State) (twoD slide : Bool) (m : LoadManner) (a : DevAddr) (d : Tuple) :
    s.OnlyPipeline (s.loadStep twoD slide m a d) := by
  cases slide
  · exact s.onlyPipeline_load ..
  · exact (s.onlyPipeline_copyRow ..).trans (State.onlyPipeline_load ..)

theorem loadPointer_ne_rc (down : Bool) : loadPointer down ≠ Reg.rc := by cases down <;> decide

theorem nwWord_eq (twoD : Bool) : nwWord twoD = if twoD then 2 else 4 := rfl

theorem State.fetchWords_ok (hd : d.is2d = x.twoD) (h : x.readsTuple down (x.reg (loadPointer down)) d v) :
    x.fetchWords down = .ok (d, v.setReg (loadPointer down) (pointerAfter down x.twoD (x.reg (loadPointer down)))) := by
  have hv : v = x.withMemory v := by cases down <;> exact State.reads_frame h
  have hreg (k : Reg) : v.reg k = x.reg k := by rw [hv]; rfl
  have htwo : v.twoD = x.twoD := by rw [hv]; rfl
  cases down with
  | true =>
    have hr : x.readDown x.twoD (x.reg Reg.dsp) = .ok (d, v) := State.readDown_ok hd h
    rw [State.fetchWords, if_pos rfl, hr, ok_bind]
    dsimp only
    rw [hreg, htwo]
    rfl
  | false =>
    have hr : x.readUp x.twoD (x.reg Reg.rp) = .ok (d, v) := State.readUp_ok hd h
    rw [State.fetchWords, if_neg (by decide), hr, ok_bind]
    dsimp only
    rw [hreg, htwo]
    rfl

theorem State.transferOnce_load {t : State} (hs : slide = true → m = .mm) (h : x.fetchWords down = .ok (d, t)) :
    x.transferOnce (loadAction m slide) down a = (t.loadStep d.is2d slide m a d, none) := by
  cases slide with
  | true =>
    obtain rfl := hs rfl
    simp only [loadAction, if_true, State.transferOnce, h]
    rfl
  | false =>
    simp only [loadAction, State.transferOnce, h]
    rfl

/-- The state in which an iteration runs agrees on memory with the state its content is. -/
theorem State.SameBesideCounters.view (h : x.SameBesideCounters z) (a : DevAddr) : (x.setRsrAddress a).SameView z := by
  rw [h]
  exact ⟨rfl, rfl, rfl, rfl, rfl, rfl, rfl⟩

theorem State.SameBesideCounters.dim (h : x.SameBesideCounters z) : x.dim = z.dim := by
  rw [h]
  rfl

/-- One iteration of a load or retrieve. -/
theorem State.loadOnce (hs : slide = true → m = .mm) (hx : x.SameBesideCounters z) (hd : d.is2d = z.twoD)
    (h : z.readsTuple down (x.reg (loadPointer down)) d v) :
    ∃ y, (x.setRsrAddress a).transferOnce (loadAction m slide) down a = (y, none) ∧
      x.OnceDone y a (loadPointer down) (v.loadStep z.twoD slide m a d) (pointerAfter down z.twoD (x.reg (loadPointer down))) := by
  have htwo : z.twoD = x.twoD := congrArg Dim.is2d hx.dim.symm
  have hv : v = z.withMemory v := by cases down <;> exact State.reads_frame h
  have hread : (x.setRsrAddress a).readsTuple down (x.reg (loadPointer down)) d ((x.setRsrAddress a).withMemory v) := by
    cases down <;> exact (hx.view a).reads h
  have hfetch := State.fetchWords_ok (x := x.setRsrAddress a) (hd.trans htwo) hread
  have hcontent : (x.setRsrAddress a).withMemory v = v.withCounters x.regs (x.setRsrAddress a).rsr := by
    rw [hv, hx]
    rfl
  refine ⟨(v.loadStep z.twoD slide m a d).withCounters
    (x.setReg (loadPointer down) (pointerAfter down z.twoD (x.reg (loadPointer down)))).regs (x.setRsrAddress a).rsr,
    (State.transferOnce_load hs hfetch).trans ?_, ?_⟩
  · rw [hcontent, hd, htwo]
    exact congrArg (·, none) (v.loadStep_withCounters ..)
  · exact ⟨rfl, rfl, (State.reg_setReg ..).trans (if_pos rfl), fun q hq => (State.reg_setReg ..).trans (if_neg hq)⟩

end

/-! ### Loads and retrieves (R445 to R452, R465 to R472) -/

/-- The instructions of `loadsFrom` begin the sequence of their action. -/
theorem exec_of_loadsFrom {i : Instr} {m : LoadManner} {a : DevAddr} {down slide : Bool} (h : loadsFrom i m a down slide) :
    ∃ c dm, (∀ s, exec i s = .next (s.startTransfer .pointer c false down dm a)) ∧
      actionOf false down dm = some (loadAction m slide) ∧ (slide = true → m = .mm) := by
  rcases h with ⟨h, rfl, rfl⟩ | ⟨h, rfl, rfl⟩ | ⟨rfl, rfl, rfl, rfl⟩
  case inl =>
    simp only [List.mem_cons, Prod.mk.injEq, List.not_mem_nil, or_false] at h
    rcases h with (⟨rfl, rfl⟩ | ⟨rfl, rfl⟩ | ⟨rfl, rfl⟩ | ⟨rfl, rfl⟩ | ⟨rfl, rfl⟩ | ⟨rfl, rfl⟩ |
      ⟨rfl, rfl⟩) | ⟨rfl, rfl, rfl⟩ <;>
      exact ⟨_, _, fun _ => rfl, rfl, by decide⟩
  case inr.inl =>
    simp only [List.mem_cons, Prod.mk.injEq, List.not_mem_nil, or_false] at h
    rcases h with (⟨rfl, rfl⟩ | ⟨rfl, rfl⟩ | ⟨rfl, rfl⟩ | ⟨rfl, rfl⟩ |
      ⟨rfl, rfl⟩) | ⟨rfl, rfl, rfl⟩ <;>
      exact ⟨_, _, fun _ => rfl, rfl, by decide⟩
  case inr.inr => exact ⟨_, _, fun _ => rfl, rfl, fun _ => rfl⟩

section

variable {s u z : State} {i : Instr} {m : LoadManner} {a : DevAddr} {down slide : Bool} {n : Nat}

/-- After `j` registers: their addresses, the pointer and the content. -/
def loadAddress (down : Bool) (a : DevAddr) (j : Nat) : DevAddr := if down then a - Fin.ofNat 16 j else a + Fin.ofNat 16 j

theorem loadAddress_succ (down : Bool) (a : DevAddr) (j : Nat) : loadAddress down a (j + 1) = nextAddress false down (loadAddress down a j) := by
  have hj : (Fin.ofNat 16 (j + 1) : DevAddr) = Fin.ofNat 16 j + 1 := by
    rw [Fin.ext_iff, Fin.val_add]
    simp [Fin.ofNat]
  cases down <;> simp only [loadAddress, nextAddress, hj] <;> simp [add_assoc, sub_sub]

theorem loadAddress_zero (down : Bool) (a : DevAddr) : loadAddress down a 0 = a := by
  cases down <;> simp [loadAddress]

theorem loadAction_ne_normalize (m : LoadManner) (slide : Bool) : loadAction m slide ≠ .normalize := by
  cases slide <;> exact fun h => nomatch h

/-- What a finished sequence leaves. -/
theorem State.Moved.finished {p : Reg} {content : Nat → State} {ptr : Nat → Word} {r : Nat → DevAddr}
    (h : u.Moved p content ptr r n z) (hn : 0 < n) : z.endRepeat.transferRecorded (r (n - 1)) ∧
      z.endRepeat = { content n with regs := z.regs, rsr := z.endRepeat.rsr } := by
  refine ⟨⟨(State.endRepeat_type _).trans h.type, (State.endRepeat_address _).trans (h.address (n - 1) (by omega)),
    State.endRepeat_repeatBit _⟩, ?_⟩
  rw [State.endRepeat, h.content]
  rfl

/-- Settles O41: the sequence of one register. -/
theorem loadsAndRetrievesOfOneRegister : Obligations.LoadsAndRetrievesOfOneRegister := by
  intro s u v i m a d down slide p nw hu hi hp hnw hone hd hr
  obtain ⟨c, dm, hexec, hact, hs⟩ := exec_of_loadsFrom hi
  obtain rfl : p = loadPointer down := hp
  have hv : v = u.withMemory v := by cases down <;> exact State.reads_frame hr
  obtain ⟨z, hz, hrc, hloop⟩ := State.asksFor.finish (u := u) (n := 1) (p := loadPointer down) (st := false) (sink := down) (dm := dm)
    (act := loadAction m slide) (r := loadAddress down a)
    (content := fun j => if j = 0 then u else v.loadStep u.twoD slide m a d)
    (ptr := fun j => if j = 0 then u.reg (loadPointer down) else pointerAfter down u.twoD (u.reg (loadPointer down)))
    (.inr ⟨hone, rfl⟩) (loadPointer_ne_rc down) (loadAddress_succ down a) rfl rfl (fun j hj hj1 => by omega) (by
      intro j hj x hx
      obtain rfl : j = 0 := by omega
      have hread : u.readsTuple down (x.reg (loadPointer down)) d v := by rw [hx.pointer]; exact hr
      have := State.loadOnce (a := a) hs hx.content hd hread
      rw [hx.pointer] at this
      rwa [loadAddress_zero])
  obtain ⟨hrec, hframe⟩ := hz.finished one_pos
  rw [loadAddress_zero] at hloop hrec
  refine ⟨z.endRepeat, ?_, ?_, ⟨fun k hk => ?_, fun b => ?_⟩, hrec, hframe⟩
  · rw [hexec, State.startTransfer_loop hu hone.1 hact (loadAction_ne_normalize m slide), hloop]
  · rw [hnw]
    exact hz.pointer
  · have hkp : k ≠ loadPointer down := by simpa using hk
    have hvk : v.reg k = u.reg k := by rw [hv]; rfl
    rw [hvk]
    by_cases hkrc : k = Reg.rc
    · rw [hkrc]
      exact hrc.trans (if_neg (by rw [hone.2]; decide))
    · exact hz.others k hkrc hkp
  · rw [hframe]
    exact congrArg (Memory.readByte · b) (v.onlyPipeline_loadStep ..).view.mem

/-! ### Counted loads and retrieves (R436, R437, D32) -/

/-- The content after `j` registers loaded. -/
def State.loaded (u : State) (m : LoadManner) (slide : Bool) (r : Nat → DevAddr) (d : Nat → Tuple) (j : Nat) : State :=
  (List.range j).foldl (fun w j => (if slide then w.copyRow u.twoD (r j) (rowOfA (r j)) else w).load m (r j) (d j)) u

theorem State.loaded_succ (u : State) (m : LoadManner) (slide : Bool) (r : Nat → DevAddr) (d : Nat → Tuple) (j : Nat) :
    u.loaded m slide r d (j + 1) = (u.loaded m slide r d j).loadStep u.twoD slide m (r j) (d j) := by
  rw [State.loaded, List.range_succ, List.foldl_append]
  rfl

theorem State.onlyPipeline_loaded (u : State) (m : LoadManner) (slide : Bool) (r : Nat → DevAddr) (d : Nat → Tuple) (j : Nat) :
    u.OnlyPipeline (u.loaded m slide r d j) := by
  induction j with
  | zero => exact ⟨rfl, rfl⟩
  | succ j ih =>
    rw [State.loaded_succ]
    exact ih.trans (State.onlyPipeline_loadStep ..)

theorem State.OnlyPipeline.turns {s t : State} (h : s.OnlyPipeline t) : t.turns = s.turns := h.view.turns

/-- Where the words of the next register begin. -/
def lowWord (down : Bool) (p : Word) (nw : Nat) : Word := if down then p - BitVec.ofNat 24 nw else p

/-- The `l`-th word read in the direction of the sequence. -/
theorem lowWord_down (p : Word) {nw l : Nat} (hl : l < nw) :
    p - 1 + BitVec.ofNat 24 l * -1 = lowWord true p nw + BitVec.ofNat 24 (nw - 1 - l) := by
  have hsplit : BitVec.ofNat 24 nw = BitVec.ofNat 24 (nw - 1 - l) + 1 + BitVec.ofNat 24 l := by
    rw [show (1 : BitVec 24) = BitVec.ofNat 24 1 from rfl, ← BitVec.ofNat_add, ← BitVec.ofNat_add]
    congr 1
    omega
  rw [lowWord, if_pos rfl, hsplit]
  ring

/-- The words of a register are read in the direction of the sequence. -/
theorem State.readsTuple_of_wordsAt {s : State} {down : Bool} {p : Word} {d : Tuple} {nw : Nat} (ht : s.turns = [])
    (hnw : d.words.length = nw) (h : s.wordsAt (lowWord down p nw) d.words) : s.readsTuple down p d s := by
  cases down with
  | false => exact State.reads_of_wordsAt ht h
  | true =>
    refine State.reads_of_forall ht fun l hl => ?_
    rw [List.length_reverse, hnw] at hl
    rw [lowWord_down p hl, List.getElem_reverse, h (nw - 1 - l) (by omega)]
    simp only [hnw]

/-- The words of a register cannot all be read in the direction of the sequence: the access after `ds` raises `c`. -/
def State.tupleStops (s : State) (down : Bool) (p : Word) (ds : List Word) (c : Cond) (v : State) : Prop :=
  if down then s.readStops (p - 1) (-1) ds c v else s.readStops p 1 ds c v

theorem State.tupleStops_of_words {s : State} {down : Bool} {p : Word} {d : Tuple} {nw w : Nat} {c : Cond} (ht : s.turns = [])
    (hnw : d.words.length = nw) (hw : w < nw)
    (h : ∀ (l : Nat) (hl : l < d.words.length), (if down then w < l else l < w) →
      s.memRead (lowWord down p nw + BitVec.ofNat 24 l) = .ok d.words[l])
    (he : s.memRead (lowWord down p nw + BitVec.ofNat 24 w) = .error c) : ∃ ds, ds.length < nw ∧ s.tupleStops down p ds c s := by
  cases down with
  | false =>
    have hlen : (d.words.take w).length = w := by rw [List.length_take]; omega
    refine ⟨d.words.take w, by omega, State.readStops_of_forall ht (fun l hl => ?_) ?_⟩
    · rw [mul_one, List.getElem_take]
      exact h l (by omega) (by simp only [Bool.false_eq_true, if_false]; omega)
    · rw [mul_one, hlen]
      exact he
  | true =>
    have hlen : (d.words.reverse.take (nw - 1 - w)).length = nw - 1 - w := by rw [List.length_take, List.length_reverse]; omega
    refine ⟨d.words.reverse.take (nw - 1 - w), by omega, State.readStops_of_forall ht (fun l hl => ?_) ?_⟩
    · rw [hlen] at hl
      rw [lowWord_down p (nw := nw) (by omega), List.getElem_take, List.getElem_reverse,
        h (nw - 1 - l) (by omega) (by rw [if_pos rfl]; omega)]
      simp only [hnw]
    · rw [hlen, lowWord_down p (nw := nw) (by omega), show nw - 1 - (nw - 1 - w) = w by omega]
      exact he

theorem State.fetchWords_error {x v : State} {down : Bool} {ds : List Word} {c : Cond}
    (h : x.tupleStops down (x.reg (loadPointer down)) ds c v) (hl : ds.length < if x.twoD then 2 else 4) :
    x.fetchWords down = .error (c, BitVec.ofNat 24 ds.length, v) := by
  cases down with
  | true =>
    have hr : x.readDown x.twoD (x.reg Reg.dsp) = .error (c, BitVec.ofNat 24 ds.length, v) := State.readDown_stops h hl
    rw [State.fetchWords, if_pos rfl, hr, error_bind]
  | false =>
    have hr : x.readUp x.twoD (x.reg Reg.rp) = .error (c, BitVec.ofNat 24 ds.length, v) := State.readUp_stops h hl
    rw [State.fetchWords, if_neg (by decide), hr, error_bind]

theorem State.transferOnce_load_error {x v : State} {down slide : Bool} {m : LoadManner} {a : DevAddr} {c : Cond} {k : Word}
    (h : x.fetchWords down = .error (c, k, v)) : x.transferOnce (loadAction m slide) down a = (v, some c) := by
  cases slide <;> simp only [loadAction, if_true, Bool.false_eq_true, if_false, State.transferOnce, h]

/-- The pointer after `j` registers. -/
def pointerMoved (down : Bool) (p : Word) (nw j : Nat) : Word :=
  if down then p - BitVec.ofNat 24 (nw * j) else p + BitVec.ofNat 24 (nw * j)

theorem pointerMoved_zero (down : Bool) (p : Word) (nw : Nat) : pointerMoved down p nw 0 = p := by
  cases down <;> simp [pointerMoved]

theorem pointerMoved_succ (down twoD : Bool) (p : Word) {nw : Nat} (hnw : nw = if twoD then 2 else 4) (j : Nat) :
    pointerMoved down p nw (j + 1) = pointerAfter down twoD (pointerMoved down p nw j) := by
  have hword : (if twoD then 2 else 4 : Word) = BitVec.ofNat 24 nw := by
    rw [hnw]
    cases twoD <;> rfl
  rw [pointerAfter, hword, pointerMoved, pointerMoved, Nat.mul_add, BitVec.ofNat_add, Nat.mul_one]
  cases down
  · exact (BitVec.add_assoc ..).symm
  · exact (sub_sub ..).symm

theorem lowWord_pointerMoved (down : Bool) (p : Word) (nw j : Nat) : lowWord down (pointerMoved down p nw j) nw =
    if down then p - BitVec.ofNat 24 (nw * (j + 1)) else p + BitVec.ofNat 24 (nw * j) := by
  cases down
  · rfl
  · simp only [lowWord, pointerMoved, if_true, Nat.mul_add, BitVec.ofNat_add, Nat.mul_one]
    ring

theorem State.abandoned_of_eq {s z t : State} {c : Cond} (h : z = s) (hz : z.abandoned t c) : s.abandoned t c := h ▸ hz

/-- Settles O42: the registers before the fault, or all of them, by the loop; the fault by the words of its register. -/
theorem countedLoadsAndRetrievesMoveOrStopAtAFault : Obligations.CountedLoadsAndRetrievesMoveOrStopAtAFault := by
  intro s u i m a n d down slide p hu hi hp hask ht hd nw k v low moved r hnw hk hlow hmoved hr hwords hv
  obtain ⟨c, dm, hexec, hact, hs⟩ := exec_of_loadsFrom hi
  obtain rfl : p = loadPointer down := hp
  obtain rfl : r = loadAddress down a := funext hr
  obtain rfl : v = u.loaded m slide (loadAddress down a) d k := hv
  obtain rfl : moved = pointerMoved down (u.reg (loadPointer down)) nw := funext hmoved
  obtain rfl : low = fun j => lowWord down (pointerMoved down (u.reg (loadPointer down)) nw j) nw :=
    funext fun j => (hlow j).trans (lowWord_pointerMoved ..).symm
  have honly (j : Nat) := u.onlyPipeline_loaded m slide (loadAddress down a) d j
  have hturns (j : Nat) : (u.loaded m slide (loadAddress down a) d j).turns = [] := (honly j).turns.trans ht
  have htwo (j : Nat) : (u.loaded m slide (loadAddress down a) d j).twoD = u.twoD := congrArg Dim.is2d (honly j).dim
  have hlen (j : Nat) : (d j).words.length = nw := by rw [length_words, hd, hnw]
  have honce : ∀ j < k, ∀ x, u.Moved (loadPointer down) (u.loaded m slide (loadAddress down a) d)
      (pointerMoved down (u.reg (loadPointer down)) nw) (loadAddress down a) j x →
      ∃ y, (x.setRsrAddress (loadAddress down a j)).transferOnce (loadAction m slide) down (loadAddress down a j) = (y, none) ∧
        x.OnceDone y (loadAddress down a j) (loadPointer down) (u.loaded m slide (loadAddress down a) d (j + 1))
          (pointerMoved down (u.reg (loadPointer down)) nw (j + 1)) := by
    intro j hj x hx
    have hread : (u.loaded m slide (loadAddress down a) d j).readsTuple down (x.reg (loadPointer down)) (d j)
        (u.loaded m slide (loadAddress down a) d j) := by
      rw [hx.pointer]
      exact State.readsTuple_of_wordsAt (hturns j) (hlen j) fun l hl => ((honly j).view.memRead _).trans (hwords j hj l hl)
    have := State.loadOnce (a := loadAddress down a j) hs hx.content ((hd j).trans (htwo j).symm) hread
    rwa [hx.pointer, htwo j, ← pointerMoved_succ down u.twoD _ hnw, ← State.loaded_succ] at this
  have hkeeps {z : State} {q : State} {j : Nat} (hz : u.Moved (loadPointer down) (u.loaded m slide (loadAddress down a) d)
      (pointerMoved down (u.reg (loadPointer down)) nw) (loadAddress down a) j z) (hq : q.regs = z.regs)
      (hmem : q.mem = (u.loaded m slide (loadAddress down a) d j).mem) : u.keepsBeside q [Reg.rc, loadPointer down] := by
    refine ⟨fun b hb => ?_, fun b => by rw [hmem, (honly j).view.mem]⟩
    simp only [List.mem_cons, List.not_mem_nil, or_false, not_or] at hb
    exact (State.reg_congr hq b).trans (hz.others b hb.1 hb.2)
  refine ⟨?_, ?_⟩
  · rintro rfl
    obtain ⟨z, hz, hrc, hloop⟩ := hask.finish (dm := dm) (loadPointer_ne_rc down) (loadAddress_succ down a) rfl
      (pointerMoved_zero down _ nw) (fun j _ _ => hturns j) honce
    obtain ⟨hrec, hframe⟩ := hz.finished hask.pos
    rw [loadAddress_zero] at hloop
    refine ⟨z.endRepeat, ?_, hrc, hz.pointer, hkeeps hz rfl (by rw [hframe]), hrec, hframe⟩
    rw [hexec, State.startTransfer_loop hu hask.repeatBit hact (loadAction_ne_normalize m slide), hloop]
  · intro w c hkn hw hbefore hfault
    obtain ⟨z, _, hz, hrc, hloop⟩ := hask.iterate (dm := dm) (loadPointer_ne_rc down) (loadAddress_succ down a) rfl
      (pointerMoved_zero down _ nw) (fun j _ _ => hturns j) honce hkn
    rw [loadAddress_zero] at hloop
    obtain ⟨ds, hds, hstops⟩ := State.tupleStops_of_words (hturns k) (hlen k) hw
      (fun l hl hc => ((honly k).view.memRead _).trans (hbefore l hl hc)) (((honly k).view.memRead _).trans hfault)
    have hview := hz.content.view (loadAddress down a k)
    have hztwo : (z.setRsrAddress (loadAddress down a k)).twoD = u.twoD := (congrArg Dim.is2d hz.content.dim).trans (htwo k)
    have hstops' : (z.setRsrAddress (loadAddress down a k)).tupleStops down (z.reg (loadPointer down)) ds c
        (z.setRsrAddress (loadAddress down a k)) := by
      rw [hz.pointer]
      rw [State.tupleStops] at hstops ⊢
      split
      next hd =>
        rw [if_pos hd] at hstops
        simpa only [hview.withMemory_self] using hview.readStops hstops
      next hd =>
        rw [if_neg hd] at hstops
        simpa only [hview.withMemory_self] using hview.readStops hstops
    have hfetch := State.fetchWords_error (x := z.setRsrAddress (loadAddress down a k)) hstops'
      (lt_of_lt_of_eq hds (hnw.trans (by rw [hztwo])))
    have hcontent : z.setRsrAddress (loadAddress down a k) = { u.loaded m slide (loadAddress down a) d k with
        regs := z.regs, rsr := (z.setRsrAddress (loadAddress down a k)).rsr } := congrArg (State.setRsrAddress · _) hz.content
    refine ⟨(z.setRsrAddress (loadAddress down a k)).raise c, ?_, hrc, hz.pointer, hkeeps hz rfl (by rw [hz.content]; rfl),
      (z.setRsrAddress_repeatBit _).trans hz.repeatBit, z.setRsrAddress_address _,
      State.abandoned_of_eq hcontent (State.abandoned_raise _ c)⟩
    rw [hexec, State.startTransfer_loop hu hask.repeatBit hact (loadAction_ne_normalize m slide), hloop,
      State.transferLoop_error (State.transferOnce_load_error hfetch)]

end

end Sys2Proof.Machine
end

section
/-!
Stores and sinks of the pipeline registers (R432, R436, R437, R453 to R455, R470, R473 to R475): the words a register gives, one register stored, and
the statements.
-/

namespace Sys2Proof.Machine

/-! ### The words of a register (R432) -/

/-- The bits of an eight-bit field just put into a word, and the bits outside it. -/
theorem bitAt_setFieldAt_byte (w : Word) {i k : Nat} (b : BitVec 8) (hi : i + 7 < 24) (hk : k < 24) :
    bitAt (setFieldAt w i (i + 7) b.toNat) k = if i ≤ k ∧ k ≤ i + 7 then b.getMsbD (k - i) else bitAt w k := by
  rw [bitAt_setFieldAt _ _ hi hk]
  split
  next h =>
    rw [BitVec.getMsbD, BitVec.getLsbD, decide_eq_true (by omega), Bool.true_and]
    congr 1
    omega
  next => rfl

theorem selintStore_bits (c : ClipDiv) {k : Nat} (hk : k < 24) : bitAt (selintStore c).1 k =
    if 2 ≤ k ∧ k ≤ 9 then c.select.getMsbD (k - 2) else if 11 ≤ k ∧ k ≤ 18 then c.permit.getMsbD (k - 11) else false := by
  have hpermit := bitAt_setFieldAt_byte (setFieldAt 0 2 9 c.select.toNat) (i := 11) (k := k) c.permit (by decide) hk
  have hselect := bitAt_setFieldAt_byte 0 (i := 2) (k := k) c.select (by decide) hk
  rw [selintStore, hpermit, hselect]
  by_cases h : 11 ≤ k ∧ k ≤ 18
  · rw [if_pos h, if_neg (by omega), if_pos h]
  · simp [h]

theorem cdirStore_bits (c : Cdir) {k : Nat} (hk : k < 24) : bitAt (cdirStore c).1 k =
    [false, false, false, false, c.stos, c.stom, c.ztos, c.ptom, c.ntom, true, c.curve, !c.curve, c.mef, !c.mef, c.dashed, !c.dashed, false,
      c.selfX, c.selfY, true].getD k false := by
  simp only [cdirStore, putPair, bitAt_setBitAt]
  interval_cases k <;> simp

theorem mdirStore_bits (d : Mdir) {k : Nat} (hk : k < 24) : bitAt (mdirStore Params.default.mdirLayout d).1 k =
    [d.moc, !d.moc, d.mom, !d.mom, d.curve, !d.curve, d.tr1, !d.tr1, d.tr0, !d.tr0].getD k false := by
  simp only [mdirStore, putPair, bitAt_setBitAt, Params.default]
  interval_cases k <;> simp

/-! ### Words in memory -/

theorem readWord_congr {m m' : List Host.Cell} {p : Nat} (h : ∀ b, 3 * p ≤ b → b < 3 * p + 3 → Memory.readByte m b = Memory.readByte m' b) :
    Memory.readWord m p = Memory.readWord m' p := by
  rw [Memory.readWord, Memory.readWord, h _ le_rfl (by omega), h (3 * p + 1) (by omega) (by omega), h (3 * p + 2) (by omega) (by omega)]

section

variable {s x z u v : State} {a : DevAddr} {p : Word}

/-- Where no other agent acts, words written at distinct physical addresses stand there, and every other byte stays. -/
theorem State.wordsStored_of_writes {ws : List Word} {ps : List Nat} (hw : Memory.wf s.mem = true) (ht : s.turns = [])
    (h : s.writes p ws v) (hl : ps.length = ws.length) (hd : ps.Nodup)
    (hp : ∀ (k : Nat) (hk : k < ps.length), s.physical (p + BitVec.ofNat 24 k) = .ok ps[k]) : wordsStored s.mem v.mem ps ws := by
  induction ws generalizing s p ps with
  | nil =>
    obtain rfl := List.length_eq_zero_iff.mp hl
    rw [State.writes] at h
    rw [h]
    exact ⟨fun _ hk => absurd hk (Nat.not_lt_zero _), fun _ _ => rfl⟩
  | cons y ws ih =>
    obtain ⟨q, qs, rfl⟩ := List.exists_cons_of_length_eq_add_one hl
    obtain ⟨hq, hqs⟩ := List.nodup_cons.mp hd
    have hphys : s.physical p = .ok q := by simpa using hp 0 (Nat.succ_pos _)
    obtain ⟨r, hr, hrest⟩ : ∃ r, s.memWrite p y = .ok r ∧ r.writes (p + 1) ws v := by
      cases ws with
      | nil => exact ⟨v, h, rfl⟩
      | cons z ws =>
        obtain ⟨r, hr, hrest⟩ := h
        have hrt : r.turns = [] := by rwa [State.memWrite_frame hr]
        exact ⟨r, hr, by rwa [State.gap_nil hrt] at hrest⟩
    obtain ⟨q', hq', rfl⟩ := State.memWrite_eq_ok.mp hr
    obtain rfl : q = q' := Except.ok.inj (hphys.symm.trans hq')
    obtain ⟨hwords, hbytes⟩ := ih (s := { s with mem := Memory.writeWord s.mem q y }) (Memory.wf_writeWord hw q y) ht hrest
      (Nat.succ_inj.mp hl) hqs fun k hk => by
        rw [word_add_step]
        exact hp (k + 1) (Nat.succ_lt_succ hk)
    refine ⟨fun k hk hk' => ?_, fun b hb => ?_⟩
    · cases k with
      | zero =>
        have hkeep : Memory.readWord v.mem q = Memory.readWord (Memory.writeWord s.mem q y) q :=
          readWord_congr fun b _ _ => hbytes b fun q' hq' => by
            have : q' ≠ q := fun he => hq (he ▸ hq')
            omega
        exact hkeep.trans (Memory.readWord_writeWord_self hw q y)
      | succ k => exact hwords k (Nat.lt_of_succ_lt_succ hk) (Nat.lt_of_succ_lt_succ hk')
    · rw [hbytes b fun q' hq' => hb q' (List.mem_cons_of_mem _ hq')]
      exact Memory.readByte_writeWord _ _ (hb q List.mem_cons_self)

/-! ### One register stored (R436, R437, R474) -/

/-- The action of a store or sink, with the slide or without. -/
def storeAction (w : Device) (slide : Bool) : Action := if slide then .sinkSlide else .unload w

/-- The pointer register of a store or sink. -/
def storePointer (sink : Bool) : Reg := if sink then Reg.dsp else Reg.rp

theorem storePointer_ne_rc (sink : Bool) : storePointer sink ≠ Reg.rc := by cases sink <;> decide

theorem storeAction_ne_normalize (w : Device) (slide : Bool) : storeAction w slide ≠ .normalize := by
  cases slide <;> exact fun h => nomatch h

/-- The slide after a register was sunk, if there is one. -/
def State.sinkStep (twoD slide : Bool) (a : DevAddr) (s : State) : State := if slide then s.copyRow twoD (rowOfA a) a else s

section

variable {w : Device} {sink slide twoD : Bool} {c : Cond} {d : Tuple} {l : Nat}

theorem is2d_unload (s : State) (twoD : Bool) (w : Device) (a : DevAddr) : (s.unload twoD w a).is2d = twoD := by
  cases w <;> cases twoD <;> rfl

theorem State.SameBesideCounters.unload (h : x.SameBesideCounters z) (twoD : Bool) (w : Device) (b a : DevAddr) :
    (x.setRsrAddress b).unload twoD w a = z.unload twoD w a := by
  rw [h]
  cases w <;> rfl

theorem State.onlyPipeline_sinkStep (s : State) (twoD slide : Bool) (a : DevAddr) : s.OnlyPipeline (s.sinkStep twoD slide a) := by
  cases slide
  · exact ⟨rfl, rfl⟩
  · exact s.onlyPipeline_copyRow ..

theorem State.storeWords_ok (h : x.writes (x.reg (storePointer sink)) d.words v) :
    x.storeWords sink d = (v.setReg (storePointer sink) (x.reg (storePointer sink) + nwWord d.is2d), none) := by
  have hv := State.writes_frame h
  have hreg (k : Reg) : v.reg k = x.reg k := by rw [hv]; rfl
  have hup := State.writeUp_ok h
  rw [storePointer] at hup ⊢
  rw [State.storeWords, hup]
  dsimp only
  rw [hreg]

theorem State.storeWords_stops {xs ys : List Word} (ht : x.turns = []) (hd : d.words = xs ++ ys) (hne : ys ≠ [])
    (h : x.writes (x.reg (storePointer sink)) xs v)
    (he : x.physical (x.reg (storePointer sink) + BitVec.ofNat 24 xs.length) = .error c) : x.storeWords sink d = (v, some c) := by
  have hup := State.writeUp_stops ht h he hne
  rw [storePointer, ← hd] at hup
  rw [State.storeWords, hup]

/-- A store or sink whose words are written. -/
theorem State.transferOnce_store {t : State} (hs : slide = true → w = .matrix) (h : x.storeWords sink (x.unload x.twoD w a) = (t, none)) :
    x.transferOnce (storeAction w slide) sink a = (t.sinkStep t.twoD slide a, none) := by
  cases slide with
  | true =>
    obtain rfl := hs rfl
    simp only [storeAction, if_true, State.transferOnce, h]
    rfl
  | false => exact h

theorem State.transferOnce_store_error {t : State} (hs : slide = true → w = .matrix)
    (h : x.storeWords sink (x.unload x.twoD w a) = (t, some c)) : x.transferOnce (storeAction w slide) sink a = (t, some c) := by
  cases slide with
  | true =>
    obtain rfl := hs rfl
    simp only [storeAction, if_true, State.transferOnce, h]
  | false => exact h

/-- One iteration of a store or sink. -/
theorem State.storeOnce (hs : slide = true → w = .matrix) (hx : x.SameBesideCounters z)
    (h : z.writes (x.reg (storePointer sink)) (z.unload z.twoD w a).words v) :
    ∃ y, (x.setRsrAddress a).transferOnce (storeAction w slide) sink a = (y, none) ∧
      x.OnceDone y a (storePointer sink) (v.sinkStep z.twoD slide a) (x.reg (storePointer sink) + nwWord z.twoD) := by
  have htwo : x.twoD = z.twoD := congrArg Dim.is2d hx.dim
  have hv : v = z.withMemory v := State.writes_frame h
  have hwrite : (x.setRsrAddress a).writes (x.reg (storePointer sink)) ((x.setRsrAddress a).unload x.twoD w a).words
      ((x.setRsrAddress a).withMemory v) := by
    rw [hx.unload, htwo]
    exact (hx.view a).writes h
  have hstore := State.storeWords_ok (x := x.setRsrAddress a) hwrite
  rw [is2d_unload, congrArg nwWord htwo] at hstore
  have hcontent : (x.setRsrAddress a).withMemory v = v.withCounters x.regs (x.setRsrAddress a).rsr := by
    rw [hv, hx]
    rfl
  have hvtwo : v.twoD = z.twoD := by rw [hv]; rfl
  refine ⟨(v.sinkStep z.twoD slide a).withCounters (x.setReg (storePointer sink) (x.reg (storePointer sink) + nwWord z.twoD)).regs
    (x.setRsrAddress a).rsr, (State.transferOnce_store hs hstore).trans ?_, ?_⟩
  · rw [hcontent, ← hvtwo]
    cases slide
    · rfl
    · exact congrArg (·, none) (v.copyRow_withCounters ..)
  · exact ⟨rfl, rfl, (State.reg_setReg ..).trans (if_pos rfl), fun q hq => (State.reg_setReg ..).trans (if_neg hq)⟩

end

/-- The instructions of `storesThrough` begin the sequence of their action. -/
theorem exec_of_storesThrough {i : Instr} {w : Device} {q : Reg} {slide : Bool} (h : storesThrough i w a q slide) :
    ∃ c dm sink, (∀ s, exec i s = .next (s.startTransfer .pointer c true sink dm a)) ∧
      actionOf true sink dm = some (storeAction w slide) ∧ (slide = true → w = .matrix) ∧ q = storePointer sink := by
  simp only [storesThrough, List.mem_cons, Prod.mk.injEq, List.not_mem_nil, or_false] at h
  rcases h with (⟨rfl, rfl, rfl, rfl⟩ | ⟨rfl, rfl, rfl, rfl⟩ | ⟨rfl, rfl, rfl, rfl⟩ | ⟨rfl, rfl, rfl, rfl⟩ | ⟨rfl, rfl, rfl, rfl⟩) |
    ⟨⟨rfl, rfl, rfl, rfl⟩ | ⟨rfl, rfl, rfl, rfl⟩, rfl⟩
  case inl.inl | inl.inr.inl => exact ⟨_, _, false, fun _ => rfl, rfl, by decide, rfl⟩
  case inl.inr.inr.inl | inl.inr.inr.inr.inl => exact ⟨_, _, true, fun _ => rfl, rfl, by decide, rfl⟩
  case inl.inr.inr.inr.inr => exact ⟨_, _, true, fun _ => rfl, rfl, fun _ => rfl, rfl⟩
  case inr.inl => exact ⟨_, _, false, fun _ => rfl, rfl, by decide, rfl⟩
  case inr.inr => exact ⟨_, _, true, fun _ => rfl, rfl, by decide, rfl⟩

/-- The addresses of a sequence that rises. -/
theorem risingAddress_succ (a : DevAddr) (sink : Bool) (j : Nat) :
    a + Fin.ofNat 16 (j + 1) = nextAddress true sink (a + Fin.ofNat 16 j) := by
  have h := loadAddress_succ false a j
  cases sink <;> exact h

theorem risingAddress_zero (a : DevAddr) : a + Fin.ofNat 16 0 = a := loadAddress_zero false a

theorem State.onlyPipeline_mm {t : State} (h : s.OnlyPipeline t) : t.mem = s.mem := h.view.mem

end

/-- Settles O43: the words register by register, and the sequence of one register. -/
theorem storesAndSinksOfOneRegister : Obligations.StoresAndSinksOfOneRegister := by
  refine ⟨fun s => ⟨?pairs, ?quads, ?cdir, ?selint, fun a => ⟨rfl, rfl⟩, ?mdir⟩, ?store⟩
  case pairs =>
    simp only [List.forall_mem_cons]
    exact ⟨⟨rfl, rfl⟩, ⟨rfl, rfl⟩, ⟨rfl, rfl⟩, ⟨rfl, rfl⟩, ⟨rfl, rfl⟩, ⟨rfl, rfl⟩, ⟨rfl, rfl⟩, ⟨rfl, rfl⟩, ⟨rfl, rfl⟩, ⟨rfl, rfl⟩,
      List.forall_mem_nil _⟩
  case quads =>
    simp only [List.forall_mem_cons]
    exact ⟨⟨rfl, rfl⟩, ⟨rfl, rfl⟩, ⟨rfl, rfl⟩, ⟨rfl, rfl⟩, List.forall_mem_nil _⟩
  case cdir => exact ⟨_, rfl, rfl, fun k hk => cdirStore_bits _ hk⟩
  case selint => exact ⟨_, rfl, rfl, fun k hk => selintStore_bits _ hk⟩
  case mdir =>
    intro h a
    refine ⟨(mdirStore s.params.mdirLayout s.mdir).1, rfl, rfl, fun k hk => ?_⟩
    rw [h]
    exact mdirStore_bits _ hk
  case store =>
    intro s u v i w a p slide ps ws hu hi hinv hone hws hwrites
    subst hws
    obtain ⟨c, dm, sink, hexec, hact, hs, rfl⟩ := exec_of_storesThrough hi
    have hv : v = u.withMemory v := State.writes_frame hwrites
    obtain ⟨z, hz, hrc, hloop⟩ := State.asksFor.finish (u := u) (n := 1) (p := storePointer sink) (st := true) (sink := sink) (dm := dm)
      (act := storeAction w slide) (r := fun j => a + Fin.ofNat 16 j)
      (content := fun j => if j = 0 then u else v.sinkStep u.twoD slide a)
      (ptr := fun j => if j = 0 then u.reg (storePointer sink) else u.reg (storePointer sink) + nwWord u.twoD)
      (.inr ⟨hone, rfl⟩) (storePointer_ne_rc sink) (risingAddress_succ a sink) rfl rfl (fun j hj hj1 => by omega) (by
        intro j hj x hx
        obtain rfl : j = 0 := by omega
        have hwrite : u.writes (x.reg (storePointer sink)) (u.unload u.twoD w a).words v := by rwa [hx.pointer]
        have := State.storeOnce (a := a) hs hx.content hwrite
        rw [hx.pointer] at this
        rwa [risingAddress_zero])
    obtain ⟨hrec, hframe⟩ := hz.finished one_pos
    rw [Nat.sub_self] at hrec
    simp only [risingAddress_zero] at hloop hrec
    refine ⟨z.endRepeat, ?_, hz.pointer, fun k hk => ?_, fun ht hl hd hp => ?_, hrec, hframe⟩
    · rw [hexec, State.startTransfer_loop hu hone.1 hact (storeAction_ne_normalize w slide), hloop]
    · by_cases hkrc : k = Reg.rc
      · rw [hkrc]
        exact hrc.trans (if_neg (by rw [hone.2]; decide))
      · exact hz.others k hkrc hk
    · have hmem : z.endRepeat.mem = v.mem := by
        rw [hframe]
        exact (v.onlyPipeline_sinkStep ..).view.mem
      rw [hmem]
      exact State.wordsStored_of_writes hinv.memory ht hwrites hl hd hp

/-! ### Counted stores and sinks (R436, R437, D32) -/

theorem State.SameView.trans {x u v : State} (h : x.SameView u) (h' : u.SameView v) : x.SameView v :=
  ⟨h.mode.trans h'.mode, h.params.trans h'.params, h.bar.trans h'.bar, h.protection.trans h'.protection, h.mem.trans h'.mem,
    h.turns.trans h'.turns, h.hostSeen.trans h'.hostSeen⟩

section

variable {s u v : State} {p : Word} {ws : Nat → List Word} {nw k : Nat} {rest : List Word}

theorem flatMap_range_succ (ws : Nat → List Word) (j : Nat) : (List.range (j + 1)).flatMap ws = (List.range j).flatMap ws ++ ws j := by
  rw [List.range_succ, List.flatMap_append, List.flatMap_singleton]

theorem length_flatMap_range (hl : ∀ j, (ws j).length = nw) (j : Nat) : ((List.range j).flatMap ws).length = nw * j := by
  induction j with
  | zero => rfl
  | succ j ih => rw [flatMap_range_succ, List.length_append, ih, hl, Nat.mul_succ]

/-- The state after the words of the first `j` registers. -/
def State.afterWords (u : State) (p : Word) (ws : Nat → List Word) (j : Nat) : State := (u.writeUp p ((List.range j).flatMap ws)).1

/-- What is written register by register, of words written in a row. -/
theorem State.writes_afterWords (ht : u.turns = []) (hl : ∀ j, (ws j).length = nw) (h : u.writes p ((List.range k).flatMap ws ++ rest) v) :
    (u.writes p ((List.range k).flatMap ws) (u.afterWords p ws k) ∧ (u.afterWords p ws k).writes (p + BitVec.ofNat 24 (nw * k)) rest v) ∧
      ∀ j < k, u.writes p ((List.range j).flatMap ws) (u.afterWords p ws j) ∧
        (u.afterWords p ws j).writes (p + BitVec.ofNat 24 (nw * j)) (ws j) (u.afterWords p ws (j + 1)) := by
  induction k generalizing rest v with
  | zero => exact ⟨⟨rfl, by rw [Nat.mul_zero, BitVec.add_zero]; exact h⟩, fun j hj => absurd hj (Nat.not_lt_zero j)⟩
  | succ k ih =>
    obtain ⟨r, hr, hrest⟩ := State.writes_append ht h
    obtain rfl : u.afterWords p ws (k + 1) = r := congrArg Prod.fst (State.writeUp_ok hr)
    rw [length_flatMap_range hl] at hrest
    refine ⟨⟨hr, hrest⟩, fun j hj => ?_⟩
    rw [flatMap_range_succ] at hr
    obtain ⟨hlast, hbefore⟩ := ih hr
    rcases Nat.lt_succ_iff_lt_or_eq.mp hj with hj | rfl
    · exact hbefore j hj
    · exact hlast

/-- The content of the pipeline after the slides of the first `j` registers. -/
def State.slid (u : State) (slide : Bool) (a : DevAddr) (j : Nat) : State :=
  (List.range j).foldl (fun y h => if slide then y.copyRow u.twoD (rowOfA (a + Fin.ofNat 16 h)) (a + Fin.ofNat 16 h) else y) u

theorem State.slid_succ (u : State) (slide : Bool) (a : DevAddr) (j : Nat) :
    u.slid slide a (j + 1) = (u.slid slide a j).sinkStep u.twoD slide (a + Fin.ofNat 16 j) := by
  rw [State.slid, List.range_succ, List.foldl_append]
  rfl

theorem State.slid_frame (u : State) (slide : Bool) (a : DevAddr) (j : Nat) : u.slid slide a j = { u with mm := (u.slid slide a j).mm } := by
  induction j with
  | zero => rfl
  | succ j ih =>
    rw [State.slid_succ]
    cases slide
    · exact ih
    · rw [State.sinkStep, if_pos rfl, State.copyRow, State.setMmRow_frame]
      rw [ih]

theorem State.sinkStep_withMemory (s v : State) (twoD slide : Bool) (a : DevAddr) :
    (s.withMemory v).sinkStep twoD slide a = (s.sinkStep twoD slide a).withMemory v := by
  cases slide
  · rfl
  · cases twoD <;> rfl

theorem State.unload_withMemory (s v : State) (twoD : Bool) (w : Device) (a : DevAddr) :
    (s.withMemory v).unload twoD w a = s.unload twoD w a := by
  cases w <;> rfl

end

/-- Settles O44: the words of the registers in turn, and the fault by the words of its register. -/
theorem countedStoresAndSinksMoveOrStopAtAFault : Obligations.CountedStoresAndSinksMoveOrStopAtAFault := by
  intro s u v i w a p slide n nw k l z ws hu hi hask ht hnw hk hz hws hwrites
  obtain ⟨c, dm, sink, hexec, hact, hs, rfl⟩ := exec_of_storesThrough hi
  obtain rfl : z = u.slid slide a := funext hz
  have hlen (j : Nat) : (ws j).length = nw := by rw [hws, length_words, is2d_unload, hnw]
  obtain ⟨⟨hall, hrest⟩, hword⟩ := State.writes_afterWords ht hlen hwrites
  have hwritten (j : Nat) (hj : j ≤ k) : u.writes (u.reg (storePointer sink)) ((List.range j).flatMap ws)
      (u.afterWords (u.reg (storePointer sink)) ws j) := by
    rcases hj.lt_or_eq with hj | rfl
    · exact (hword j hj).1
    · exact hall
  have hview (j : Nat) (hj : j ≤ k) : ((u.slid slide a j).withMemory (u.afterWords (u.reg (storePointer sink)) ws j)).SameView
      (u.afterWords (u.reg (storePointer sink)) ws j) := by
    refine State.SameView.withMemory ?_ (State.writes_frame (hwritten j hj))
    rw [State.slid_frame]
    exact ⟨rfl, rfl, rfl, rfl, rfl, rfl, rfl⟩
  have htwo (j : Nat) : ((u.slid slide a j).withMemory (u.afterWords (u.reg (storePointer sink)) ws j)).twoD = u.twoD := by
    rw [State.slid_frame]
    rfl
  have honce : ∀ j < k, ∀ x, u.Moved (storePointer sink)
      (fun j => (u.slid slide a j).withMemory (u.afterWords (u.reg (storePointer sink)) ws j))
      (pointerMoved false (u.reg (storePointer sink)) nw) (fun j => a + Fin.ofNat 16 j) j x →
      ∃ y, (x.setRsrAddress (a + Fin.ofNat 16 j)).transferOnce (storeAction w slide) sink (a + Fin.ofNat 16 j) = (y, none) ∧
        x.OnceDone y (a + Fin.ofNat 16 j) (storePointer sink)
          ((u.slid slide a (j + 1)).withMemory (u.afterWords (u.reg (storePointer sink)) ws (j + 1)))
          (pointerMoved false (u.reg (storePointer sink)) nw (j + 1)) := by
    intro j hj x hx
    have hwrite := (hview j hj.le).writes (hword j hj).2
    rw [hws j, ← State.unload_withMemory _ (u.afterWords (u.reg (storePointer sink)) ws j), ← htwo j] at hwrite
    have hptr : x.reg (storePointer sink) = u.reg (storePointer sink) + BitVec.ofNat 24 (nw * j) := hx.pointer
    rw [← hptr] at hwrite
    have := State.storeOnce (a := a + Fin.ofNat 16 j) hs hx.content hwrite
    rw [htwo j, hptr, State.sinkStep_withMemory, State.sinkStep_withMemory, ← State.slid_succ] at this
    rw [pointerMoved_succ false u.twoD _ hnw]
    exact this
  have hturns (j : Nat) (hj : j ≤ k) : ((u.slid slide a j).withMemory (u.afterWords (u.reg (storePointer sink)) ws j)).turns = [] := by
    have := State.writes_turns_nil ht (hwritten j hj)
    exact this
  have hframe : (u.slid slide a k).withMemory v = { v with mm := (u.slid slide a k).mm } := by
    have hv : v = u.withMemory v := (State.writes_frame hrest).trans (by rw [State.writes_frame hall]; rfl)
    rw [State.slid_frame, hv]
    rfl
  refine ⟨?_, ?_⟩
  · rintro rfl rfl
    obtain rfl : v = u.afterWords (u.reg (storePointer sink)) ws k := hrest
    obtain ⟨x, hx, hrc, hloop⟩ := hask.finish (dm := dm) (storePointer_ne_rc sink) (risingAddress_succ a sink) rfl
      (pointerMoved_zero false _ nw) (fun j _ hj => hturns j hj.le) honce
    obtain ⟨hrec, hend⟩ := hx.finished hask.pos
    rw [risingAddress_zero] at hloop
    refine ⟨x.endRepeat, ?_, hrc, hx.pointer, hx.others, hrec, hend.trans ?_⟩
    · rw [hexec, State.startTransfer_loop hu hask.repeatBit hact (storeAction_ne_normalize w slide), hloop]
    · exact congrArg (fun y : State => { y with regs := x.regs, rsr := x.endRepeat.rsr }) hframe
  · intro c hkn hlnw hfault
    obtain ⟨x, _, hx, hrc, hloop⟩ := hask.iterate (dm := dm) (storePointer_ne_rc sink) (risingAddress_succ a sink) rfl
      (pointerMoved_zero false _ nw) (fun j _ hj => hturns j hj) honce hkn
    rw [risingAddress_zero] at hloop
    have hx' := (hx.content.view (a + Fin.ofNat 16 k)).trans (hview k le_rfl)
    have hptr : x.reg (storePointer sink) = u.reg (storePointer sink) + BitVec.ofNat 24 (nw * k) := hx.pointer
    have hrest' := hx'.writes hrest
    have hdrop : (ws k).drop l ≠ [] := by
      rw [Ne, List.drop_eq_nil_iff, hlen]
      omega
    have htake : ((ws k).take l).length = l := by
      rw [List.length_take, hlen]
      omega
    have hfault' : (x.setRsrAddress (a + Fin.ofNat 16 k)).physical
        (u.reg (storePointer sink) + BitVec.ofNat 24 (nw * k) + BitVec.ofNat 24 ((ws k).take l).length) = .error c := by
      rw [hx'.physical, State.writes_frame hall, htake, BitVec.add_assoc, ← BitVec.ofNat_add]
      exact hfault
    rw [← hptr] at hrest' hfault'
    have hunload : ((x.setRsrAddress (a + Fin.ofNat 16 k)).unload (x.setRsrAddress (a + Fin.ofNat 16 k)).twoD w (a + Fin.ofNat 16 k)).words =
        (ws k).take l ++ (ws k).drop l := by
      have hxtwo : (x.setRsrAddress (a + Fin.ofNat 16 k)).twoD = u.twoD := (congrArg Dim.is2d hx.content.dim).trans (htwo k)
      rw [List.take_append_drop, hxtwo, hx.content.unload, State.unload_withMemory, hws]
    have hstore := State.storeWords_stops (x := x.setRsrAddress (a + Fin.ofNat 16 k)) (hx'.turns.trans (hturns k le_rfl)) hunload hdrop
      hrest' hfault'
    have hcontent : (x.setRsrAddress (a + Fin.ofNat 16 k)).withMemory v =
        { v with regs := x.regs, rsr := (x.setRsrAddress (a + Fin.ofNat 16 k)).rsr, mm := (u.slid slide a k).mm } :=
      (congrArg (fun y : State => (y.setRsrAddress (a + Fin.ofNat 16 k)).withMemory v) hx.content).trans
        (congrArg (fun y : State => { y with regs := x.regs, rsr := (x.setRsrAddress (a + Fin.ofNat 16 k)).rsr }) hframe)
    refine ⟨((x.setRsrAddress (a + Fin.ofNat 16 k)).withMemory v).raise c, ?_, hrc, hx.pointer, hx.others,
      (x.setRsrAddress_repeatBit _).trans hx.repeatBit, x.setRsrAddress_address _,
      State.abandoned_of_eq hcontent (State.abandoned_raise _ c)⟩
    rw [hexec, State.startTransfer_loop hu hask.repeatBit hact (storeAction_ne_normalize w slide), hloop,
      State.transferLoop_error (State.transferOnce_store_error hs hstore)]

end Sys2Proof.Machine
end

section
/-!
PUSHMM, POPMM, NOMM and the register forms (R425, R439, R456 to R464, R476 to R478): what they do to the matrix array and the registers, and the
statements.
-/

namespace Sys2Proof.Machine

/-! ### Rows copied (R477, R478) -/

section

variable {s u x z v : State} {a : DevAddr} {sink : Bool}

/-- The elements after a row was copied to another. -/
theorem State.mmAt_copyRow (v : State) (twoD : Bool) (src dst b : DevAddr) (j : Fin 4) :
    (v.copyRow twoD src dst).mmAt b j = if b = dst ∧ (twoD = true → j.val < 2) then v.mmAt src j else v.mmAt b j := by
  cases twoD with
  | true => exact (v.mmAt_setMmRow_two dst b j (v.mmAt src)).trans (by simp only [true_implies])
  | false => exact (v.mmAt_setMmRow_four dst b j (v.mmAt src)).trans (by simp)

/-- The row a push or a pop copies, and where to. -/
def State.rowStep (push twoD : Bool) (a : DevAddr) (s : State) : State :=
  if push then s.copyRow twoD (rowOfA a) a else s.copyRow twoD a (rowOfA a)

/-- The action of PUSHMM or POPMM. -/
def rowAction (push : Bool) : Action := if push then .push else .pop

theorem State.rowStep_frame (push twoD : Bool) (a : DevAddr) (s : State) :
    s.rowStep push twoD a = { s with mm := (s.rowStep push twoD a).mm } := by
  cases push <;> exact s.setMmRow_frame ..

theorem State.rowOnce (push : Bool) (hx : x.SameBesideCounters z) :
    ∃ y, (x.setRsrAddress a).transferOnce (rowAction push) sink a = (y, none) ∧
      x.OnceDone y a Reg.rp (z.rowStep push z.twoD a) (x.reg Reg.rp) := by
  have htwo : (x.setRsrAddress a).twoD = z.twoD := congrArg Dim.is2d hx.dim
  have hstep : (x.setRsrAddress a).rowStep push z.twoD a = (z.rowStep push z.twoD a).withCounters x.regs (x.setRsrAddress a).rsr := by
    have hx' : x.setRsrAddress a = z.withCounters x.regs (x.setRsrAddress a).rsr := congrArg (State.setRsrAddress · a) hx
    rw [hx']
    cases push <;> exact z.copyRow_withCounters ..
  refine ⟨(x.setRsrAddress a).rowStep push z.twoD a, by rw [← htwo]; cases push <;> rfl, ?_⟩
  rw [hstep]
  exact ⟨rfl, rfl, rfl, fun _ _ => rfl⟩

/-- The rows copied for the first `j` registers. -/
def State.rowsCopied (u : State) (push : Bool) (a : DevAddr) (j : Nat) : State :=
  (List.range j).foldl (fun w j => if push then w.copyRow u.twoD (rowOfA (a + Fin.ofNat 16 j)) (a + Fin.ofNat 16 j)
    else w.copyRow u.twoD (a + Fin.ofNat 16 j) (rowOfA (a + Fin.ofNat 16 j))) u

theorem State.rowsCopied_succ (u : State) (push : Bool) (a : DevAddr) (j : Nat) :
    u.rowsCopied push a (j + 1) = (u.rowsCopied push a j).rowStep push u.twoD (a + Fin.ofNat 16 j) := by
  rw [State.rowsCopied, List.range_succ, List.foldl_append]
  rfl

theorem State.rowsCopied_frame (u : State) (push : Bool) (a : DevAddr) (j : Nat) :
    u.rowsCopied push a j = { u with mm := (u.rowsCopied push a j).mm } := by
  induction j with
  | zero => rfl
  | succ j ih =>
    rw [State.rowsCopied_succ, State.rowStep_frame]
    rw [ih]

end

/-- PUSHMM or POPMM of `n` registers. -/
theorem exec_push_pop {s u : State} {a : DevAddr} {i : Instr} {push : Bool} {n : Nat} (hu : u = s.settle)
    (hi : (i, push) ∈ [(Instr.pushmm a, true), (.popmm a, false)]) (hask : u.asksFor n) (ht : n = 1 ∨ u.turns = []) :
    ∃ t, exec i s = .next t ∧ t.reg Reg.rc = (if bitAt (u.reg Reg.rc) 0 then 0 else u.reg Reg.rc) ∧ u.keepsBeside t [Reg.rc] ∧
      t.transferRecorded (a + Fin.ofNat 16 (n - 1)) ∧ t = { u.rowsCopied push a n with regs := t.regs, rsr := t.rsr } := by
  obtain ⟨c, dm, sink, hexec, hact⟩ : ∃ c dm sink, (∀ s, exec i s = .next (s.startTransfer .pointer c true sink dm a)) ∧
      actionOf true sink dm = some (rowAction push) := by
    simp only [List.mem_cons, Prod.mk.injEq, List.not_mem_nil, or_false] at hi
    rcases hi with ⟨rfl, rfl⟩ | ⟨rfl, rfl⟩
    · exact ⟨_, _, true, fun _ => rfl, rfl⟩
    · exact ⟨_, _, false, fun _ => rfl, rfl⟩
  obtain ⟨x, hx, hrc, hloop⟩ := hask.finish (p := Reg.rp) (st := true) (sink := sink) (dm := dm) (act := rowAction push)
    (r := fun j => a + Fin.ofNat 16 j) (content := u.rowsCopied push a) (ptr := fun _ => u.reg Reg.rp) (by decide)
    (risingAddress_succ a sink) rfl rfl
    (fun j hj hjn => by
      rcases ht with rfl | ht
      · omega
      · rw [State.rowsCopied_frame]
        exact ht)
    (fun j _ y hy => by
      have := State.rowOnce (a := a + Fin.ofNat 16 j) (sink := sink) push hy.content
      have htwo : (u.rowsCopied push a j).twoD = u.twoD := by rw [State.rowsCopied_frame]; rfl
      rwa [hy.pointer, htwo, ← State.rowsCopied_succ] at this)
  obtain ⟨hrec, hframe⟩ := hx.finished hask.pos
  rw [risingAddress_zero] at hloop
  refine ⟨x.endRepeat, ?_, hrc, ⟨fun k hk => ?_, fun b => ?_⟩, hrec, hframe⟩
  · rw [hexec, State.startTransfer_loop hu hask.repeatBit hact (by cases push <;> exact fun h => nomatch h), hloop]
  · by_cases hkp : k = Reg.rp
    · rw [hkp]
      exact hx.pointer
    · exact hx.others k (by simpa using hk) hkp
  · rw [hframe, State.rowsCopied_frame]

/-- Settles O45. -/
theorem pushAndPopMoveMatrixRows : Obligations.PushAndPopMoveMatrixRows := by
  refine ⟨fun v twoD src dst => ⟨_, rfl, v.setMmRow_frame .., fun b j => v.mmAt_copyRow ..⟩, ?_⟩
  rintro s u a hu ⟨i, push⟩ hi
  have htwo (t : State) (h : t = { u.rowsCopied push a 1 with regs := t.regs, rsr := t.rsr }) (b : DevAddr) (j : Fin 4) : t.mmAt b j =
      if b = (if push then a else rowOfA a) ∧ (u.twoD = true → j.val < 2) then u.mmAt (if push then rowOfA a else a) j else u.mmAt b j := by
    have hmm : t.mmAt b j = (u.rowsCopied push a 1).mmAt b j := State.mmAt_congr (by rw [h]) (by rw [h]) b j
    rw [hmm, State.rowsCopied_succ, risingAddress_zero]
    cases push <;> exact u.mmAt_copyRow ..
  refine ⟨fun hone => ?_, fun n hn => ?_⟩
  · obtain ⟨t, hexec, -, -, -, ht⟩ := exec_push_pop hu hi (.inr ⟨hone, rfl⟩) (.inl rfl)
    exact ⟨t, hexec, htwo t ht⟩
  · have hask : u.asksFor n := hn.symm.imp And.left id
    obtain ⟨t, hexec, hrest⟩ := exec_push_pop hu hi hask (hn.imp And.right And.right)
    exact ⟨t, _, rfl, hexec, hrest⟩

/-! ### The normalisation (R476) -/

theorem nodup_matrixA : matrixA.Nodup := by decide

theorem mem_matrixA_iff (a : DevAddr) (j : Fin 4) : (a, j) ∈ matrixA ↔ a.val < 4 := by
  revert a j
  decide

/-- Elements shifted at distinct positions, one after another. -/
theorem State.mmAt_foldl_shift (ps : List (DevAddr × Fin 4)) (hd : ps.Nodup) (s : State) (a : DevAddr) (j : Fin 4) :
    (ps.foldl (fun t p => t.setMm p.1 p.2 (t.mmAt p.1 p.2 <<< 1)) s).mmAt a j =
      if (a, j) ∈ ps then s.mmAt a j <<< 1 else s.mmAt a j := by
  induction ps generalizing s with
  | nil => rfl
  | cons p ps ih =>
    obtain ⟨hp, hps⟩ := List.nodup_cons.mp hd
    rw [List.foldl_cons, ih hps, State.mmAt_setMm]
    by_cases h : (a, j) = p
    · subst h
      simp [hp]
    · have hne : ¬ (a = p.1 ∧ j = p.2) := fun he => h (Prod.ext he.1 he.2)
      simp [h, hne]

theorem State.mmAt_shiftA (s : State) (a : DevAddr) (j : Fin 4) :
    s.shiftA.mmAt a j = if a.val < 4 then s.mmAt a j <<< 1 else s.mmAt a j := by
  rw [State.shiftA, State.mmAt_foldl_shift _ nodup_matrixA]
  simp only [mem_matrixA_iff]

theorem State.shiftA_frame (s : State) : s.shiftA = { s with mm := s.shiftA.mm } := by
  have fold (ps : List (DevAddr × Fin 4)) : ∀ t : State, ps.foldl (fun t p => t.setMm p.1 p.2 (t.mmAt p.1 p.2 <<< 1)) t =
      { t with mm := (ps.foldl (fun t p => t.setMm p.1 p.2 (t.mmAt p.1 p.2 <<< 1)) t).mm } := by
    induction ps with
    | nil => exact fun _ => rfl
    | cons p ps ih =>
      intro t
      rw [List.foldl_cons, ih]
      rfl
  exact fold _ s

theorem State.anyBig_iff (s : State) : s.anyBig = true ↔ ∃ (a : DevAddr) (j : Fin 4), a.val < 4 ∧ big (s.mmAt a j) = true := by
  simp only [State.anyBig, List.any_eq_true, Prod.exists, mem_matrixA_iff]

/-- The normalisation shifts matrix A while nothing in it is big, at most `n` times. -/
theorem State.normalize_spec (n : Nat) (s : State) : ∃ m ≤ n,
    (∀ (a : DevAddr) (j : Fin 4), (State.normalize n s).mmAt a j = if a.val < 4 then s.mmAt a j <<< m else s.mmAt a j) ∧
    (∀ k < m, ∀ (a : DevAddr) (j : Fin 4), a.val < 4 → big (s.mmAt a j <<< k) = false) ∧
    (m < n → ∃ (a : DevAddr) (j : Fin 4), a.val < 4 ∧ big (s.mmAt a j <<< m) = true) ∧
    State.normalize n s = { s with mm := (State.normalize n s).mm } := by
  induction n generalizing s with
  | zero => exact ⟨0, le_rfl, fun a j => by simp [State.normalize], fun k hk => absurd hk (Nat.not_lt_zero k), fun h => absurd h (lt_irrefl 0), rfl⟩
  | succ n ih =>
    rw [State.normalize]
    by_cases hbig : s.anyBig = true
    · rw [if_pos hbig]
      refine ⟨0, Nat.zero_le _, fun a j => by simp, fun k hk => absurd hk (Nat.not_lt_zero k), fun _ => ?_, rfl⟩
      simpa using s.anyBig_iff.mp hbig
    · rw [if_neg hbig]
      obtain ⟨m, hm, hat, hbefore, hafter, hframe⟩ := ih s.shiftA
      have hshift (a : DevAddr) (j : Fin 4) (ha : a.val < 4) (k : Nat) : s.shiftA.mmAt a j <<< k = s.mmAt a j <<< (k + 1) := by
        rw [s.mmAt_shiftA, if_pos ha, Nat.add_comm, BitVec.shiftLeft_add]
      refine ⟨m + 1, Nat.succ_le_succ hm, fun a j => ?_, fun k hk a j ha => ?_, fun hlt => ?_, ?_⟩
      · rw [hat]
        by_cases ha : a.val < 4
        · rw [if_pos ha, if_pos ha, hshift a j ha]
        · rw [if_neg ha, if_neg ha, s.mmAt_shiftA, if_neg ha]
      · cases k with
        | zero =>
          rw [BitVec.shiftLeft_zero, ← Bool.not_eq_true]
          exact fun h => hbig (s.anyBig_iff.mpr ⟨a, j, ha, h⟩)
        | succ k =>
          rw [← hshift a j ha]
          exact hbefore k (Nat.lt_of_succ_lt_succ hk) a j ha
      · obtain ⟨a, j, ha, h⟩ := hafter (Nat.lt_of_succ_lt_succ hlt)
        exact ⟨a, j, ha, hshift a j ha m ▸ h⟩
      · rw [hframe, s.shiftA_frame]

/-- The normalisation of NOMM, which 2D leaves out. -/
theorem State.normalizeIn3d_spec (n : Nat) (s : State) : ∃ m ≤ n, (s.twoD = true → m = 0) ∧
    (∀ (a : DevAddr) (j : Fin 4),
      (if s.twoD then s else State.normalize n s).mmAt a j = if a.val < 4 then s.mmAt a j <<< m else s.mmAt a j) ∧
    (∀ k < m, ∀ (a : DevAddr) (j : Fin 4), a.val < 4 → big (s.mmAt a j <<< k) = false) ∧
    (s.twoD = false → m < n → ∃ (a : DevAddr) (j : Fin 4), a.val < 4 ∧ big (s.mmAt a j <<< m) = true) ∧
    (if s.twoD then s else State.normalize n s) = { s with mm := (if s.twoD then s else State.normalize n s).mm } := by
  cases s.twoD with
  | true =>
    exact ⟨0, Nat.zero_le n, fun _ => rfl, fun a j => by simp, fun k hk => absurd hk (Nat.not_lt_zero k), fun h => absurd h (by decide), rfl⟩
  | false =>
    obtain ⟨m, hm, hat, hbefore, hafter, hframe⟩ := s.normalize_spec n
    exact ⟨m, hm, fun h => absurd h (by decide), hat, hbefore, fun _ => hafter, hframe⟩

/-- Settles O46: the normalisation, then RC zero and the sequence ended. -/
theorem normalizeShiftsMatrixA : Obligations.NormalizeShiftsMatrixA := by
  intro s u hu hr
  have hexec : exec .nomm s = .next (State.setReg (if (u.beginTransfer true false 5 0).twoD then u.beginTransfer true false 5 0
      else State.normalize (iterations (u.reg Reg.rc)) (u.beginTransfer true false 5 0)) Reg.rc 0).endRepeat :=
    congrArg Host.Outcome.next (State.startTransfer_begin hu hr .pointer _ true false 5 0)
  obtain ⟨n, hn, htwo, hat, hbefore, hafter, hframe⟩ := (u.beginTransfer true false 5 0).normalizeIn3d_spec (iterations (u.reg Reg.rc))
  generalize (if (u.beginTransfer true false 5 0).twoD then u.beginTransfer true false 5 0
    else State.normalize (iterations (u.reg Reg.rc)) (u.beginTransfer true false 5 0)) = y at hexec hat hframe
  refine ⟨_, n, hexec, (State.reg_setReg ..).trans (if_pos rfl), ⟨fun k hk => ?_, fun b => ?_⟩, State.endRepeat_repeatBit _, hn, htwo, hat,
    hbefore, hafter, ?_⟩
  · refine (State.reg_setReg ..).trans ((if_neg (by simpa using hk)).trans (State.reg_congr ?_ k))
    rw [hframe]
    rfl
  · have hmem : y.mem = u.mem := by rw [hframe]; rfl
    exact congrArg (Memory.readByte · b) hmem
  · rw [hframe]
    rfl

/-! ### The register forms (R425, R439) -/

section

variable {s u x : State} {c : Reg} {d : Tuple}

theorem State.regTuple_of_wordsIn (h : u.wordsIn c d) : u.regTuple u.twoD c = d := by
  obtain ⟨hd, hw⟩ := h
  rw [← hd]
  cases d with
  | two d0 d1 =>
    have h0 : d0 = u.reg (c + Fin.ofNat 16 0) := hw 0 (by simp [Tuple.words])
    have h1 : d1 = u.reg (c + Fin.ofNat 16 1) := hw 1 (by simp [Tuple.words])
    rw [h0, h1, risingAddress_zero]
    rfl
  | four d0 d1 d2 d3 =>
    have h0 : d0 = u.reg (c + Fin.ofNat 16 0) := hw 0 (by simp [Tuple.words])
    have h1 : d1 = u.reg (c + Fin.ofNat 16 1) := hw 1 (by simp [Tuple.words])
    have h2 : d2 = u.reg (c + Fin.ofNat 16 2) := hw 2 (by simp [Tuple.words])
    have h3 : d3 = u.reg (c + Fin.ofNat 16 3) := hw 3 (by simp [Tuple.words])
    rw [h0, h1, h2, h3, risingAddress_zero]
    rfl

/-- The registers after consecutive ones from `c` were written. -/
theorem State.reg_setRegTuple (s : State) (c q : Reg) (d : Tuple) : (s.setRegTuple c d).reg (c + q) = d.words.getD q.val (s.reg (c + q)) := by
  have hne (k : Reg) : c + q = c + k ↔ q = k := add_right_inj c
  have hzero : c + q = c ↔ q = 0 := by simp
  cases d <;> simp only [State.setRegTuple, State.reg_setReg, hne, hzero] <;> fin_cases q <;> rfl

theorem State.setRegTuple_frame (s : State) (c : Reg) (d : Tuple) : s.setRegTuple c d = { s with regs := (s.setRegTuple c d).regs } := by
  cases d <;> rfl

/-- Two groups of consecutive registers written, one after the other. -/
theorem State.reg_setRegTuple_twice (s x : State) (c q : Reg) {d e : Tuple} (hx : ∀ k, x.reg k = (s.setRegTuple c d).reg k) :
    (x.setRegTuple (c + Fin.ofNat 16 d.words.length) e).reg (c + q) = (d.words ++ e.words).getD q.val (s.reg (c + q)) := by
  have hsplit : c + q = c + Fin.ofNat 16 d.words.length + (q - Fin.ofNat 16 d.words.length) := by rw [add_assoc, add_sub_cancel]
  have hreg := x.reg_setRegTuple (c + Fin.ofNat 16 d.words.length) (q - Fin.ofNat 16 d.words.length) e
  rw [← hsplit, hx, State.reg_setRegTuple] at hreg
  have hd : d.words.length ≤ 4 := by rw [length_words]; split <;> decide
  have he : e.words.length ≤ 4 := by rw [length_words]; split <;> decide
  have hval : (q - Fin.ofNat 16 d.words.length).val = (16 - d.words.length + q.val) % 16 := by
    rw [Fin.sub_def]
    dsimp only [Fin.ofNat]
    rw [Nat.mod_eq_of_lt (by omega : d.words.length < 16)]
  have hq := q.isLt
  rw [hreg, hval]
  by_cases hlt : q.val < d.words.length
  · rw [List.getD_append _ _ _ _ hlt, List.getD_eq_default _ _ (by omega)]
  · rw [List.getD_append_right _ _ _ _ (not_lt.mp hlt), List.getD_eq_default d.words _ (not_lt.mp hlt)]
    congr 1
    omega

theorem State.transferRecorded_of_rsr {y q : State} {b : DevAddr} (hy : fieldAt y.rsr 2 4 = 3) (hq : q.rsr = (y.setRsrAddress b).rsr) :
    q.endRepeat.transferRecorded b := by
  refine ⟨?_, ?_, State.endRepeat_repeatBit _⟩
  · rw [State.endRepeat_type, hq, State.setRsrAddress_type, hy]
  · rw [State.endRepeat_address, hq, State.setRsrAddress_address]

/-- One transfer of a register form that loads, in a state with the registers of `u`. -/
theorem State.regTransferOnce_load {z : State} (hz : z.dim = u.dim) (hd : u.wordsIn c d) (m : LoadManner) (a : DevAddr) (rsr : Word) :
    (z.withCounters u.regs rsr).regTransferOnce (.load m) c a = (z.load m a d).withCounters u.regs rsr := by
  have htuple : (z.withCounters u.regs rsr).regTuple (z.withCounters u.regs rsr).twoD c = d := by
    have htwo : (z.withCounters u.regs rsr).twoD = u.twoD := congrArg Dim.is2d hz
    rw [htwo, ← State.regTuple_of_wordsIn hd]
    rfl
  rw [State.regTransferOnce, htuple]
  exact z.load_withCounters ..

/-- One transfer of a register form that stores. -/
theorem State.regTransferOnce_store {regs : Vector Word 16} {rsr : Word} (v : Device) (a : DevAddr) :
    (u.withCounters regs rsr).regTransferOnce (.unload v) c a = (u.withCounters regs rsr).setRegTuple c (u.unload u.twoD v a) := by
  cases v <;> rfl

/-- The first register and the number of transfers of an X field. -/
theorem xField_of_mem {x : XSel} {double : Bool}
    (h : (x, c, double) ∈ [(XSel.sac0, 0, false), (.sx, 8, false), (.sac2, 2, false), (.sz, 10, false), (.dac0, 0, true), (.dx, 8, true)]) :
    c = xFirst x ∧ double = xDouble x := by
  simp only [List.mem_cons, Prod.mk.injEq, List.not_mem_nil, or_false] at h
  rcases h with ⟨rfl, rfl, rfl⟩ | ⟨rfl, rfl, rfl⟩ | ⟨rfl, rfl, rfl⟩ | ⟨rfl, rfl, rfl⟩ | ⟨rfl, rfl, rfl⟩ |
      ⟨rfl, rfl, rfl⟩ <;>
    exact ⟨rfl, rfl⟩

theorem secondGroup_eq (twoD : Bool) (c : Reg) : secondGroup twoD c = c + Fin.ofNat 16 (if twoD then 2 else 4) := by
  cases twoD <;> rfl

end

section

variable {s u : State} {i : Instr} {a : DevAddr} {x : XSel}

/-- With nothing to resume, a register form transfers the registers of its X field. -/
theorem State.registerForm_begin (hu : u = s.settle) (hr : u.repeatBit = false) {act : Action} {st : Bool} {dm : Nat}
    (hact : actionOf st false dm = some act) (hn : act ≠ .normalize) :
    s.registerForm st dm a x = (u.beginTransfer st false dm a).regTransfer act x a := by
  rw [State.registerForm, State.startTransfer_begin hu hr, State.runTransfer, hact]
  cases act
  case normalize => exact absurd rfl hn
  all_goals rfl

/-- The register forms that load. -/
theorem exec_registerLoad {m : LoadManner}
    (h : (i, m) ∈ registerLoads.map (fun f => (f.1 a x, f.2)) ∨ (i = .rlomdr x ∧ m = .mdr ∧ a = 0)) :
    ∃ dm, (∀ s, exec i s = .next (s.registerForm false dm a x)) ∧ actionOf false false dm = some (.load m) := by
  simp only [registerLoads, List.map_cons, List.map_nil, List.mem_cons, Prod.mk.injEq, List.not_mem_nil, or_false] at h
  rcases h with (⟨rfl, rfl⟩ | ⟨rfl, rfl⟩ | ⟨rfl, rfl⟩ | ⟨rfl, rfl⟩ | ⟨rfl, rfl⟩) | ⟨rfl, rfl, rfl⟩ <;>
    exact ⟨_, fun _ => rfl, rfl⟩

/-- The register forms that store. -/
theorem exec_registerStore {v : Device} (h : (i, v) ∈ [(Instr.rstcl a x, Device.clippingDivider), (.rstmm a x, .matrix)] ∨
    (i = .rstmdr x ∧ v = .directive ∧ a = 0)) :
    ∃ dm, (∀ s, exec i s = .next (s.registerForm true dm a x)) ∧ actionOf true false dm = some (.unload v) := by
  simp only [List.mem_cons, Prod.mk.injEq, List.not_mem_nil, or_false] at h
  rcases h with (⟨rfl, rfl⟩ | ⟨rfl, rfl⟩) | ⟨rfl, rfl, rfl⟩ <;> exact ⟨_, fun _ => rfl, rfl⟩

end

section

variable {s u z : State} {act : Action} {x : XSel} {a b : DevAddr}

theorem State.regTransfer_single (h : xDouble x = false) :
    s.regTransfer act x a = ((s.setRsrAddress a).regTransferOnce act (xFirst x) a).endRepeat := by
  simp only [State.regTransfer, h]
  rfl

theorem State.regTransfer_double (h : xDouble x = true) :
    s.regTransfer act x a = ((((s.setRsrAddress a).regTransferOnce act (xFirst x) a).setRsrAddress (a + 1)).regTransferOnce act
      (secondGroup s.twoD (xFirst x)) (a + 1)).endRepeat := by
  simp only [State.regTransfer, h]
  rfl

theorem State.reg_setRegTuple_withCounters (u : State) (rsr : Word) (c k : Reg) (d : Tuple) :
    ((u.withCounters u.regs rsr).setRegTuple c d).reg k = (u.setRegTuple c d).reg k := by
  cases d <;> rfl

/-- What a register form that loads leaves: the loads made, the registers as they were, and REPEAT STATUS. -/
theorem State.registerLoad_left {rsr : Word} (hrsr : fieldAt rsr 2 4 = 3) (hz : u.OnlyPipeline z) :
    let t := ((z.withCounters u.regs rsr).setRsrAddress b).endRepeat
    u.keepsBeside t [] ∧ t.transferRecorded b ∧ t = { z with regs := t.regs, rsr := t.rsr } :=
  ⟨⟨fun _ _ => rfl, fun k => congrArg (Memory.readByte · k) hz.view.mem⟩,
    State.transferRecorded_of_rsr (y := z.withCounters u.regs rsr) hrsr rfl, rfl⟩

/-- The clauses of a register form that stores, from what stands in the register `q` places after the first. -/
theorem State.registersStored {t : State} {c : Reg} {ws : List Word} (hlength : ws.length ≤ 16)
    (h : ∀ q : Reg, t.reg (c + q) = ws.getD q.val (u.reg (c + q))) :
    (∀ (k : Nat) (h : k < ws.length), t.reg (c + Fin.ofNat 16 k) = ws[k]) ∧
      ∀ r : Reg, (∀ k < ws.length, r ≠ c + Fin.ofNat 16 k) → t.reg r = u.reg r := by
  refine ⟨fun k hk => ?_, fun r hr => ?_⟩
  · rw [h, List.getD_eq_getElem?_getD, show (Fin.ofNat 16 k).val = k from Nat.mod_eq_of_lt (by omega), List.getElem?_eq_getElem hk]
    rfl
  · have hsplit : c + (r - c) = r := add_sub_cancel c r
    have hfar : ws.length ≤ (r - c).val := not_lt.mp fun hlt => hr _ hlt (by rw [Fin.ofNat_val_eq_self, hsplit])
    have hreg := h (r - c)
    rwa [hsplit, List.getD_eq_default _ _ hfar] at hreg

/-- `t` is `u` with the words `ws` in the registers from `c` on, and REPEAT STATUS for the address `b`. -/
def State.registersWritten (u t : State) (c : Reg) (ws : List Word) (b : DevAddr) : Prop :=
  (∀ (k : Nat) (h : k < ws.length), t.reg (c + Fin.ofNat 16 k) = ws[k]) ∧
    (∀ r : Reg, (∀ k < ws.length, r ≠ c + Fin.ofNat 16 k) → t.reg r = u.reg r) ∧
    t.transferRecorded b ∧ t = { u with regs := t.regs, rsr := t.rsr }

/-- What a register form that stores leaves: the registers, and REPEAT STATUS. -/
theorem State.registerStore_left {regs : Vector Word 16} {rsr : Word} {c : Reg} {ws : List Word} (hrsr : fieldAt rsr 2 4 = 3)
    (hlength : ws.length ≤ 16) (h : ∀ q : Reg, (u.withCounters regs rsr).reg (c + q) = ws.getD q.val (u.reg (c + q))) :
    let t := ((u.withCounters regs rsr).setRsrAddress b).endRepeat
    u.registersWritten t c ws b := by
  obtain ⟨hstored, hkept⟩ := State.registersStored hlength h
  exact ⟨hstored, hkept, State.transferRecorded_of_rsr (y := u.withCounters regs rsr) hrsr rfl, rfl⟩

end

/-- Settles O47. -/
theorem registerTransfers : Obligations.RegisterTransfers := by
  intro s u a x c double nw hu hr hx hnw
  obtain ⟨rfl, rfl⟩ := xField_of_mem hx
  have hsecond : secondGroup u.twoD (xFirst x) = xFirst x + Fin.ofNat 16 nw := by rw [secondGroup_eq, hnw]
  refine ⟨fun i m d e hi hd he => ?load, fun i v ws hi hws => ?store⟩
  case load =>
    obtain ⟨dm, hexec, hact⟩ := exec_registerLoad hi
    rw [← hsecond] at he
    have hform := State.registerForm_begin (a := a) (x := x) hu hr hact (fun h => nomatch h)
    have htype := u.beginTransfer_type false false dm a
    have honly := u.onlyPipeline_load m a d
    have hfirst : ((u.beginTransfer false false dm a).setRsrAddress a).regTransferOnce (.load m) (xFirst x) a =
        (u.load m a d).withCounters u.regs ((u.beginTransfer false false dm a).setRsrAddress a).rsr :=
      State.regTransferOnce_load (z := u) rfl hd m a _
    refine ⟨_, hexec s, ?_⟩
    rw [hform]
    cases hdouble : xDouble x with
    | false =>
      rw [State.regTransfer_single hdouble, hfirst]
      exact State.registerLoad_left htype honly
    | true =>
      have hnext : (((u.load m a d).withCounters u.regs ((u.beginTransfer false false dm a).setRsrAddress a).rsr).setRsrAddress
          (a + 1)).regTransferOnce (.load m) (secondGroup u.twoD (xFirst x)) (a + 1) =
          ((u.load m a d).load m (a + 1) e).withCounters u.regs _ :=
        State.regTransferOnce_load (z := u.load m a d) honly.dim he m (a + 1) _
      rw [State.regTransfer_double hdouble, hfirst]
      refine (congrArg (fun y => u.keepsBeside (State.endRepeat y) [] ∧ (State.endRepeat y).transferRecorded (a + 1) ∧
        State.endRepeat y = { (u.load m a d).load m (a + 1) e with regs := (State.endRepeat y).regs, rsr := (State.endRepeat y).rsr })
        hnext).mpr ?_
      exact State.registerLoad_left (b := a + 1) (rsr := ((u.beginTransfer false false dm a).setRsrAddress a).rsr)
        ((State.setRsrAddress_type _ _).trans htype) (honly.trans (State.onlyPipeline_load ..))
  case store =>
    obtain ⟨dm, hexec, hact⟩ := exec_registerStore hi
    have hform := State.registerForm_begin (a := a) (x := x) hu hr hact (fun h => nomatch h)
    have htype := u.beginTransfer_type true false dm a
    have hlength (b : DevAddr) : (u.unload u.twoD v b).words.length = nw := by rw [length_words, is2d_unload, hnw]
    have hwords : nw ≤ 4 := by rw [hnw]; split <;> decide
    have hstored (regs : Vector Word 16) (rsr : Word) (c : Reg) (b : DevAddr) :
        (u.withCounters regs rsr).regTransferOnce (.unload v) c b =
          u.withCounters (((u.withCounters regs rsr).setRegTuple c (u.unload u.twoD v b)).regs) rsr :=
      (State.regTransferOnce_store v b).trans (State.setRegTuple_frame _ c _)
    have hfirst := hstored u.regs ((u.beginTransfer true false dm a).setRsrAddress a).rsr (xFirst x) a
    refine ⟨_, hexec s, ?_⟩
    rw [hform]
    cases hdouble : xDouble x with
    | false =>
      rw [hdouble, if_neg (by decide), List.append_nil] at hws
      subst hws
      rw [State.regTransfer_single hdouble]
      refine (congrArg (fun y => u.registersWritten (State.endRepeat y) (xFirst x) _ a) hfirst).mpr ?_
      exact State.registerStore_left htype (by rw [hlength]; omega) fun q => State.reg_setRegTuple _ _ q _
    | true =>
      rw [hdouble, if_pos rfl] at hws
      subst hws
      have hnext := hstored ((u.withCounters u.regs ((u.beginTransfer true false dm a).setRsrAddress a).rsr).setRegTuple (xFirst x)
        (u.unload u.twoD v a)).regs (((u.beginTransfer true false dm a).setRsrAddress a).setRsrAddress (a + 1)).rsr
        (secondGroup u.twoD (xFirst x)) (a + 1)
      rw [State.regTransfer_double hdouble]
      refine (congrArg (fun y => u.registersWritten (State.endRepeat y) (xFirst x) _ (a + 1))
        ((congrArg (fun y => ((State.setRsrAddress y (a + 1)).regTransferOnce (.unload v) (secondGroup u.twoD (xFirst x)) (a + 1))) hfirst).trans
          hnext)).mpr ?_
      refine State.registerStore_left (b := a + 1) (rsr := ((u.beginTransfer true false dm a).setRsrAddress a).rsr)
        ((State.setRsrAddress_type _ _).trans htype) (by rw [List.length_append, hlength, hlength]; omega) fun q => ?_
      rw [hsecond, ← hlength a]
      exact State.reg_setRegTuple_twice u _ (xFirst x) q fun k => State.reg_setRegTuple_withCounters ..

end Sys2Proof.Machine
end

section
/-!
The units of the pipeline neither read nor write what the Channel Control alone keeps, REPEAT STATUS and the queue (R430, R438, R530): what
they do commutes with a change of the two, and leaves both as they are.
-/

namespace Sys2Proof.Machine

/-- `s` with another REPEAT STATUS and another queue. -/
def State.withChannel (s : State) (rsr : Word) (queue : List Command) : State := { s with rsr := rsr, queue := queue }

/-- `MM[a][j] <- Acc(MM[a][j], FMul(Q, MM[b][j]))` for one position (R541, R542). -/
def State.mmStep (s : State) (a b : DevAddr) (j : Fin 4) : State :=
  s.setMm a j (accumulate s.params.arith [s.mmAt a j, fmul s.params.arith s.mdir.q (s.mmAt b j)])

theorem State.mmStepRow_eq (s : State) (a b : DevAddr) :
    s.mmStepRow a b = (((s.mmStep a b 0).mmStep a b 1).mmStep a b 2).mmStep a b 3 := rfl

/-- The rows of a 3D curve after a step: matrix A from the top down (R541). -/
def State.curveRows (s : State) : State := ((s.mmStepRow 0 1).mmStepRow 1 2).mmStepRow 2 3

theorem State.curve3d_eq (s : State) : s.curve3d = (s.curveRows, s.curveRows.mmRow false 0) := rfl

/-- One matrix of NEWCRV: Q times the next one added to it (R542). -/
def State.curvePass (s : State) (m : Nat) : State :=
  [0, 1, 2, 3].foldl (fun u i => u.mmStepRow (rowOf m i) (rowOf (m + 1) i)) s

theorem State.newCurve_eq (s : State) : s.newCurve = ((s.curvePass 0).curvePass 1).curvePass 2 := rfl

/-- Element `j` of [x, y] times the 2 by 2 part of A (R540). -/
def State.curveEntry (s : State) (j : Fin 4) : Word :=
  accumulate s.params.arith [fmul s.params.arith (s.mmAt 3 0) (s.mmAt 0 j), fmul s.params.arith (s.mmAt 3 1) (s.mmAt 1 j)]

/-- [x, y] replaced by [x, y] times the 2 by 2 part of A (R540). -/
def State.curveStep (s : State) : State := s.setMmRow 3 (.two (s.curveEntry 0) (s.curveEntry 1))

theorem State.curve2d_moves {s : State} {op : DrawOp} (h : op ≠ .setPoint) : s.curve2d op =
    (s.curveStep, .two (accumulate s.params.arith [s.curveEntry 0, s.curveStep.mmAt 2 0])
      (accumulate s.params.arith [s.curveEntry 1, s.curveStep.mmAt 2 1])) := by
  cases op
  case setPoint => exact absurd rfl h
  all_goals rfl

/-! ### A visible line on the scope (R553) -/

/-- A move to the first end unless the beam is there, and a draw to the second. -/
def State.emitFrom (s : State) (twoD : Bool) (e0 e1 : Point3) : State :=
  let s2 := if s.beamAt e0.x e0.y then s else s.emit .move e0.x e0.y (s.intensityAt twoD 1 e0)
  s2.emit .draw e1.x e1.y (s2.intensityAt twoD 2 e1)

theorem State.emitLine_eq (s : State) (twoD : Bool) (e0 e1 : Point3) :
    s.emitLine twoD e0 e1 = (s.raiseIf s.cd.violation .scopeViolation).emitFrom twoD e0 e1 := rfl

/-- A visible part of a line from `e0` to `e1`, with its page point (R555). -/
def State.showPart (s : State) (twoD : Bool) (e0 e1 page : Point3) : State :=
  let s1 := s.setHit.cdMemOut twoD e1 page
  if s1.cd.cdir.stos then s1.emitLine twoD e0 e1 else s1

/-- The end of a visible part at `n / d` of the line, mapped; under MEF a point of free values. -/
def State.partEnd (s : State) (twoD : Bool) (p q : CdPoint) (point free map : Nat) (n d : Int) : Point3 :=
  if s.cd.cdir.mef then s.freePoint3 free else s.mapPoint twoD map (s.spanPoint point p q n d)

theorem State.visiblePart_eq (s : State) (twoD : Bool) (p q : CdPoint) (v : Span) :
    s.visiblePart twoD p q v = s.showPart twoD (s.partEnd twoD p q 4 16 22 v.ln v.ld) (s.partEnd twoD p q 8 19 24 v.hn v.hd)
      (pagePoint (if s.cd.cdir.mef then s.somePoint p q v else s.spanPoint 8 p q v.hn v.hd)) := rfl

/-- A set point: its output to memory, and the beam moved (R552, R555). -/
def State.placePoint (s : State) (twoD : Bool) (scaled page : Point3) : State :=
  let s1 := s.cdMemOut twoD scaled page
  (s1.emit .move page.x page.y (s1.intensityAt twoD 6 page)).useFree 16

theorem State.setPointOp_eq (s : State) (n : Tuple) : s.setPointOp n =
    (s.setSave n).placePoint n.is2d (s.mapPoint n.is2d 3 (cdPoint n)) (pagePoint (cdPoint n)) := by
  cases n <;> rfl

/-! ### The two units in turn (R530) -/

section

variable {s : State} {c : Command} {q : Tuple}

theorem State.apply_of_none (h : (s.mmDraw c).2 = none) : s.apply c = (s.mmDraw c).1 := by
  unfold State.apply
  dsimp only
  rw [h]

theorem State.apply_of_some (h : (s.mmDraw c).2 = some q) : s.apply c = (s.mmDraw c).1.cdDraw c.cda c.op q := by
  unfold State.apply
  dsimp only
  rw [h]

end

/-! ### A word of output (R127) -/

section

variable {s t : State} {v : Word} {c : Cond}

theorem State.outputWord_of_ok (h : s.params.wcStopsOutput = false ∨ s.reg Reg.wc ≠ 0) (hw : s.memWrite (s.reg Reg.wp) v = .ok t) :
    s.outputWord v = t.outputCounted := by
  rw [State.outputWord_eq v h, hw]

theorem State.outputWord_of_error (h : s.params.wcStopsOutput = false ∨ s.reg Reg.wc ≠ 0)
    (hw : s.memWrite (s.reg Reg.wp) v = .error c) : s.outputWord v = (s.raise c).outputCounted := by
  rw [State.outputWord_eq v h, hw]

end

/-! ### What a dataless command does (R540 to R543) -/

section

variable {s : State} {mma : Bool} {dim : Dim} {op : DrawOp}

theorem State.mmDrawDataless_idle (h : (mma && s.mdir.curve) = false) : s.mmDrawDataless mma dim op = (s, none) := by
  unfold State.mmDrawDataless
  rw [if_neg (by rw [h]; decide)]

theorem State.mmDrawDataless_box2d (h : (mma && s.mdir.curve) = true) (hd : dim.is2d = true) :
    s.mmDrawDataless mma dim .box = (s.freeMatrices, none) := by
  unfold State.mmDrawDataless
  rw [if_pos h, hd]

theorem State.mmDrawDataless_box3d (h : (mma && s.mdir.curve) = true) (hd : dim.is2d = false) :
    s.mmDrawDataless mma dim .box = (s.newCurve, none) := by
  unfold State.mmDrawDataless
  rw [if_pos h, hd]

theorem State.mmDrawDataless_2d (h : (mma && s.mdir.curve) = true) (hd : dim.is2d = true) (hop : op ≠ .box) :
    s.mmDrawDataless mma dim op = (s.curve2d op).1.mmRoute (s.curve2d op).2 := by
  unfold State.mmDrawDataless
  rw [if_pos h, hd]
  cases op
  case box => exact absurd rfl hop
  all_goals rfl

theorem State.mmDrawDataless_3d (h : (mma && s.mdir.curve) = true) (hd : dim.is2d = false) (hop : op ≠ .box) :
    s.mmDrawDataless mma dim op = s.curve3d.1.mmRoute s.curve3d.2 := by
  unfold State.mmDrawDataless
  rw [if_pos h, hd]
  cases op
  case box => exact absurd rfl hop
  all_goals rfl

end

section

variable (s : State) (rsr : Word) (queue : List Command)

/-! ### Output to memory -/

theorem State.raiseIf_withChannel (b : Bool) (c : Cond) :
    (s.withChannel rsr queue).raiseIf b c = (s.raiseIf b c).withChannel rsr queue := by
  cases b <;> rfl

theorem State.sameView_withChannel : (s.withChannel rsr queue).SameView s := ⟨rfl, rfl, rfl, rfl, rfl, rfl, rfl⟩

theorem State.gap_withChannel : (s.withChannel rsr queue).gap = s.gap.withChannel rsr queue := by
  rw [(s.sameView_withChannel rsr queue).gap, s.gap_frame]
  rfl

theorem State.outputCounted_withChannel : (s.withChannel rsr queue).outputCounted = s.outputCounted.withChannel rsr queue := by
  unfold State.outputCounted
  dsimp only
  split
  next h => exact (if_pos (c := s.reg Reg.wc + 1 = 0) h).symm ▸ rfl
  next h => exact (if_neg (c := s.reg Reg.wc + 1 = 0) h).symm ▸ rfl

theorem State.outputWord_withChannel (v : Word) : (s.withChannel rsr queue).outputWord v = (s.outputWord v).withChannel rsr queue := by
  by_cases hstop : (s.params.wcStopsOutput && decide (s.reg Reg.wc = 0)) = true
  · rw [State.outputWord, State.outputWord, if_pos hstop]
    exact if_pos hstop
  · have hgo : s.params.wcStopsOutput = false ∨ s.reg Reg.wc ≠ 0 := by
      simpa [← Bool.not_eq_true, ← not_and_or] using hstop
    cases hw : s.memWrite (s.reg Reg.wp) v with
    | ok t =>
      have ht : (s.withChannel rsr queue).memWrite (s.reg Reg.wp) v = .ok (t.withChannel rsr queue) := by
        rw [(s.sameView_withChannel rsr queue).memWrite hw, State.memWrite_frame hw]
        rfl
      rw [State.outputWord_of_ok hgo hw, State.outputWord_of_ok (s := s.withChannel rsr queue) hgo ht, State.outputCounted_withChannel]
    | error c =>
      have ht : (s.withChannel rsr queue).memWrite (s.reg Reg.wp) v = .error c :=
        State.memWrite_eq_error.mpr (State.memWrite_eq_error.mp hw :)
      rw [State.outputWord_of_error hgo hw, State.outputWord_of_error (s := s.withChannel rsr queue) hgo ht,
        ← State.outputCounted_withChannel]
      rfl

theorem State.outputWords_withChannel (ws : List Word) :
    (s.withChannel rsr queue).outputWords ws = (s.outputWords ws).withChannel rsr queue := by
  induction ws generalizing s with
  | nil => rfl
  | cons v ws ih => rw [State.outputWords, State.outputWord_withChannel, State.gap_withChannel, ih, State.outputWords]

/-! ### The Matrix Multiplier -/

theorem State.mmRoute_withChannel (q : Tuple) :
    (s.withChannel rsr queue).mmRoute q = ((s.mmRoute q).1.withChannel rsr queue, (s.mmRoute q).2) := by
  unfold State.mmRoute
  rw [show (s.withChannel rsr queue).memoryFormat q.words = s.memoryFormat q.words from rfl, State.outputWords_withChannel,
    show (s.withChannel rsr queue).mdir = s.mdir from rfl]
  cases s.mdir.mom <;> rfl

theorem State.mmDrawData_withChannel (mma : Bool) (p : Tuple) :
    (s.withChannel rsr queue).mmDrawData mma p = ((s.mmDrawData mma p).1.withChannel rsr queue, (s.mmDrawData mma p).2) := by
  unfold State.mmDrawData
  split
  · rw [show (s.withChannel rsr queue).mdir = s.mdir from rfl]
    split
    · exact State.mmRoute_withChannel (s.useFree 4) rsr queue (s.freePoint 0 p)
    · cases p with
      | two x y => exact s.mmRoute_withChannel rsr queue (s.transform2d x y)
      | four x y z w => exact s.mmRoute_withChannel rsr queue (s.rowTimesMatrix (.four x y z w) 0)
  · rfl

@[simp] theorem State.params_withChannel : (s.withChannel rsr queue).params = s.params := rfl

@[simp] theorem State.mdir_withChannel : (s.withChannel rsr queue).mdir = s.mdir := rfl

@[simp] theorem State.cd_withChannel : (s.withChannel rsr queue).cd = s.cd := rfl

@[simp] theorem State.mmAt_withChannel (a : DevAddr) (c : Fin 4) : (s.withChannel rsr queue).mmAt a c = s.mmAt a c := rfl

theorem State.setMm_withChannel (a : DevAddr) (c : Fin 4) (v : Word) :
    (s.withChannel rsr queue).setMm a c v = (s.setMm a c v).withChannel rsr queue := rfl

theorem State.mmStep_withChannel (a b : DevAddr) (j : Fin 4) :
    (s.withChannel rsr queue).mmStep a b j = (s.mmStep a b j).withChannel rsr queue := rfl

theorem State.mmStepRow_withChannel (a b : DevAddr) :
    (s.withChannel rsr queue).mmStepRow a b = (s.mmStepRow a b).withChannel rsr queue := by
  rw [State.mmStepRow_eq, State.mmStep_withChannel, State.mmStep_withChannel, State.mmStep_withChannel, State.mmStep_withChannel,
    State.mmStepRow_eq]

theorem State.mmRow_withChannel (twoD : Bool) (a : DevAddr) : (s.withChannel rsr queue).mmRow twoD a = s.mmRow twoD a := rfl

theorem State.curveRows_withChannel : (s.withChannel rsr queue).curveRows = s.curveRows.withChannel rsr queue := by
  rw [State.curveRows, State.mmStepRow_withChannel, State.mmStepRow_withChannel, State.mmStepRow_withChannel, State.curveRows]

theorem State.curve3d_withChannel : (s.withChannel rsr queue).curve3d = (s.curve3d.1.withChannel rsr queue, s.curve3d.2) := by
  rw [State.curve3d_eq, State.curve3d_eq, State.curveRows_withChannel, State.mmRow_withChannel]

theorem State.curvePass_withChannel (m : Nat) : (s.withChannel rsr queue).curvePass m = (s.curvePass m).withChannel rsr queue :=
  List.foldl_hom (State.withChannel · rsr queue) fun t i => t.mmStepRow_withChannel rsr queue (rowOf m i) (rowOf (m + 1) i)

theorem State.newCurve_withChannel : (s.withChannel rsr queue).newCurve = s.newCurve.withChannel rsr queue := by
  rw [State.newCurve_eq, State.newCurve_eq, State.curvePass_withChannel, State.curvePass_withChannel, State.curvePass_withChannel]

theorem State.setMmRow_withChannel (a : DevAddr) (d : Tuple) :
    (s.withChannel rsr queue).setMmRow a d = (s.setMmRow a d).withChannel rsr queue := by
  cases d <;> rfl

theorem State.curveEntry_withChannel (j : Fin 4) : (s.withChannel rsr queue).curveEntry j = s.curveEntry j := rfl

theorem State.curveStep_withChannel : (s.withChannel rsr queue).curveStep = s.curveStep.withChannel rsr queue := by
  rw [State.curveStep, State.setMmRow_withChannel, State.curveEntry_withChannel, State.curveEntry_withChannel, State.curveStep]

theorem State.curve2d_withChannel (op : DrawOp) :
    (s.withChannel rsr queue).curve2d op = ((s.curve2d op).1.withChannel rsr queue, (s.curve2d op).2) := by
  by_cases hop : op = .setPoint
  · subst hop
    rfl
  · rw [State.curve2d_moves hop, State.curve2d_moves hop, State.curveStep_withChannel, State.mmAt_withChannel,
      State.mmAt_withChannel, State.curveEntry_withChannel, State.curveEntry_withChannel, State.params_withChannel]

theorem State.mmDrawDataless_withChannel (mma : Bool) (dim : Dim) (op : DrawOp) :
    (s.withChannel rsr queue).mmDrawDataless mma dim op =
      ((s.mmDrawDataless mma dim op).1.withChannel rsr queue, (s.mmDrawDataless mma dim op).2) := by
  cases hactive : mma && s.mdir.curve with
  | false => rw [State.mmDrawDataless_idle (s := s.withChannel rsr queue) hactive, State.mmDrawDataless_idle hactive]
  | true =>
    have hactive' : (mma && (s.withChannel rsr queue).mdir.curve) = true := hactive
    cases hdim : dim.is2d with
    | true =>
      by_cases hbox : op = .box
      · subst hbox
        rw [State.mmDrawDataless_box2d hactive' hdim, State.mmDrawDataless_box2d hactive hdim]
        rfl
      · rw [State.mmDrawDataless_2d hactive' hdim hbox, State.mmDrawDataless_2d hactive hdim hbox, State.curve2d_withChannel,
          State.mmRoute_withChannel]
    | false =>
      by_cases hbox : op = .box
      · subst hbox
        rw [State.mmDrawDataless_box3d hactive' hdim, State.mmDrawDataless_box3d hactive hdim, State.newCurve_withChannel]
      · rw [State.mmDrawDataless_3d hactive' hdim hbox, State.mmDrawDataless_3d hactive hdim hbox, State.curve3d_withChannel,
          State.mmRoute_withChannel]

theorem State.mmDraw_withChannel (c : Command) :
    (s.withChannel rsr queue).mmDraw c = ((s.mmDraw c).1.withChannel rsr queue, (s.mmDraw c).2) := by
  unfold State.mmDraw
  split
  · exact s.mmDrawData_withChannel ..
  · exact s.mmDrawDataless_withChannel ..

/-! ### The Clipping Divider -/

theorem State.cdMemOut_withChannel (twoD : Bool) (scaled page : Point3) :
    (s.withChannel rsr queue).cdMemOut twoD scaled page = (s.cdMemOut twoD scaled page).withChannel rsr queue := by
  unfold State.cdMemOut
  rw [State.cd_withChannel]
  split
  · exact s.outputWords_withChannel rsr queue _
  · rfl

theorem State.emitFrom_withChannel (twoD : Bool) (e0 e1 : Point3) :
    (s.withChannel rsr queue).emitFrom twoD e0 e1 = (s.emitFrom twoD e0 e1).withChannel rsr queue := by
  unfold State.emitFrom
  cases h : s.beamAt e0.x e0.y with
  | true =>
    rw [show (s.withChannel rsr queue).beamAt e0.x e0.y = true from h]
    rfl
  | false =>
    rw [show (s.withChannel rsr queue).beamAt e0.x e0.y = false from h]
    rfl

theorem State.emitLine_withChannel (twoD : Bool) (e0 e1 : Point3) :
    (s.withChannel rsr queue).emitLine twoD e0 e1 = (s.emitLine twoD e0 e1).withChannel rsr queue := by
  rw [State.emitLine_eq, State.emitLine_eq, State.cd_withChannel, State.raiseIf_withChannel, State.emitFrom_withChannel]

theorem State.showPart_withChannel (twoD : Bool) (e0 e1 page : Point3) :
    (s.withChannel rsr queue).showPart twoD e0 e1 page = (s.showPart twoD e0 e1 page).withChannel rsr queue := by
  have hout : (s.withChannel rsr queue).setHit.cdMemOut twoD e1 page = (s.setHit.cdMemOut twoD e1 page).withChannel rsr queue :=
    s.setHit.cdMemOut_withChannel rsr queue twoD e1 page
  unfold State.showPart
  dsimp only
  rw [hout, State.cd_withChannel]
  split
  · exact State.emitLine_withChannel ..
  · rfl

theorem State.visiblePart_withChannel (twoD : Bool) (p q : CdPoint) (v : Span) :
    (s.withChannel rsr queue).visiblePart twoD p q v = (s.visiblePart twoD p q v).withChannel rsr queue :=
  s.showPart_withChannel rsr queue ..

theorem State.partIfVisible_withChannel (twoD : Bool) (p q : CdPoint) (v : Option Span) :
    (s.withChannel rsr queue).partIfVisible twoD p q v = (s.partIfVisible twoD p q v).withChannel rsr queue := by
  cases v with
  | none => rfl
  | some v => exact congrArg (State.useFree · 32) (s.visiblePart_withChannel rsr queue twoD p q v)

theorem State.line3d_withChannel (p q : CdPoint) (v w : Option Span) :
    (s.withChannel rsr queue).line3d p q v w = (s.line3d p q v w).withChannel rsr queue := by
  unfold State.line3d
  rw [State.cd_withChannel]
  split
  · cases v <;> cases w <;> exact State.partIfVisible_withChannel (s.useFree 1) rsr queue false p q _
  · rw [State.partIfVisible_withChannel, State.partIfVisible_withChannel]

theorem State.line_withChannel (p q : Tuple) : (s.withChannel rsr queue).line p q = (s.line p q).withChannel rsr queue := by
  cases p with
  | two x y => exact State.partIfVisible_withChannel (s.countsUpdate.useFree 2) rsr queue true _ _ _
  | four x y z w => exact State.line3d_withChannel (s.countsUpdate.useFree 2) rsr queue _ _ _ _

theorem State.setSave_withChannel (n : Tuple) : (s.withChannel rsr queue).setSave n = (s.setSave n).withChannel rsr queue := by
  cases n <;> rfl

theorem State.placePoint_withChannel (twoD : Bool) (scaled page : Point3) :
    (s.withChannel rsr queue).placePoint twoD scaled page = (s.placePoint twoD scaled page).withChannel rsr queue := by
  unfold State.placePoint
  dsimp only
  rw [State.cdMemOut_withChannel]
  rfl

theorem State.setPointOp_withChannel (n : Tuple) : (s.withChannel rsr queue).setPointOp n = (s.setPointOp n).withChannel rsr queue := by
  rw [State.setPointOp_eq, State.setPointOp_eq, State.setSave_withChannel]
  exact (s.setSave n).placePoint_withChannel rsr queue ..

theorem State.boxOp_withChannel (m n : Tuple) : (s.withChannel rsr queue).boxOp m n = (s.boxOp m n).withChannel rsr queue := by
  cases n <;> rfl

theorem State.cdDraw_withChannel (cda : Bool) (op : DrawOp) (q : Tuple) :
    (s.withChannel rsr queue).cdDraw cda op q = (s.cdDraw cda op q).withChannel rsr queue := by
  unfold State.cdDraw
  rw [State.cd_withChannel]
  cases cda
  case false => rfl
  case true =>
    rw [if_pos rfl, if_pos rfl]
    cases op
    case setPoint => exact s.setPointOp_withChannel rsr queue _
    case drawTo | dot =>
      dsimp only
      rw [State.line_withChannel, State.setSave_withChannel]
    case drawFrom => exact s.line_withChannel rsr queue _ _
    case box => exact s.boxOp_withChannel rsr queue _ _

theorem State.apply_withChannel (c : Command) : (s.withChannel rsr queue).apply c = (s.apply c).withChannel rsr queue := by
  cases h : (s.mmDraw c).2 with
  | none =>
    rw [State.apply_of_none h, State.apply_of_none (by rw [State.mmDraw_withChannel, h]), State.mmDraw_withChannel]
  | some q =>
    rw [State.apply_of_some h, State.apply_of_some (q := q) (by rw [State.mmDraw_withChannel, h]), State.mmDraw_withChannel,
      State.cdDraw_withChannel]

end

/-! ### Settling (R430, R530) -/

section

variable (s : State)

/-- A command applied leaves REPEAT STATUS and the queue as they are. -/
theorem State.apply_channel (c : Command) : s.apply c = (s.apply c).withChannel s.rsr s.queue :=
  s.apply_withChannel s.rsr s.queue c

theorem State.apply_queue (c : Command) : (s.apply c).queue = s.queue := by rw [s.apply_channel c]; rfl

theorem State.foldl_apply_withChannel (rsr : Word) (queue l : List Command) :
    l.foldl State.apply (s.withChannel rsr queue) = (l.foldl State.apply s).withChannel rsr queue :=
  List.foldl_hom (State.withChannel · rsr queue) fun t c => t.apply_withChannel rsr queue c

/-- REPEAT STATUS does not matter to what settling does. -/
theorem State.settle_withRsr (rsr : Word) : State.settle { s with rsr := rsr } = { s.settle with rsr := rsr } := by
  have h := State.foldl_apply_withChannel { s with queue := [] } rsr [] s.queue
  have hq : (s.queue.foldl State.apply { s with queue := [] }).queue = [] := by
    have hself := State.foldl_apply_withChannel { s with queue := [] } s.rsr [] s.queue
    exact congrArg State.queue hself
  exact h.trans (congrArg (s.settle.withChannel rsr) hq.symm)

theorem State.settle_rsr : s.settle.rsr = s.rsr :=
  have h : s.settle = { s.settle with rsr := s.rsr } := s.settle_withRsr s.rsr
  (congrArg State.rsr h :)

/-- A step of the pipeline takes the oldest command, and settling goes on from there. -/
theorem State.settle_pipelineStep : s.pipelineStep.settle = s.settle := by
  cases hq : s.queue with
  | nil => rw [State.pipelineStep, hq]
  | cons c rest =>
    have hstep : s.pipelineStep = (State.apply { s with queue := [] } c).withChannel s.rsr rest := by
      rw [State.pipelineStep, hq]
      exact State.apply_withChannel { s with queue := [] } s.rsr rest c
    rw [hstep, State.settle, State.settle, hq, List.foldl_cons]
    exact congrArg (List.foldl State.apply · rest) (State.apply_channel { s with queue := [] } c).symm

end

end Sys2Proof.Machine
end

section
/-!
The agents beside the Channel Control (R15, R126, R530, R641 to R645): what each event is, and the host's accesses between two accesses of one
instruction.
-/

namespace Sys2Proof.Machine

section

variable {s : State} {ts : Turns} {rest : List Input}

/-- A step with an event of another agent than the pipeline. -/
theorem step_agent {e : AgentEvent} (h : s.inputs = .agent ts e :: rest) (he : e ≠ .pipeline) :
    step s = .next { State.agent { s with inputs := rest, turns := ts } e with turns := [] } := by
  rw [step_event h]
  cases e
  case pipeline => exact absurd rfl he
  all_goals rfl

/-- A step with an event of the pipeline. -/
theorem step_pipeline (h : s.inputs = .agent ts .pipeline :: rest) :
    step s = .next { State.testB 2 (State.pipelineStep { s with inputs := rest, turns := ts }) with turns := [] } := step_event h

theorem State.testB_of_not_raised {t : State} (n : Nat) (h : t.raised = false) : State.testB (n + 1) t = t := by
  rw [State.testB, if_neg (by rw [h]; decide)]

theorem State.hostRead_eq {a : Word} (h : a.toNat < s.params.memSize) :
    s.hostRead a = { s with hostSeen := Memory.readWord s.mem a.toNat :: s.hostSeen } := if_pos h

theorem State.hostWrite_eq {a v : Word} (h : a.toNat < s.params.memSize) :
    s.hostWrite a v = { s with mem := Memory.writeWord s.mem a.toNat v } := if_pos h

theorem step_hostRead {a : Word} (h : s.inputs = .agent ts (.hostRead a) :: rest) (ha : a.toNat < s.params.memSize) :
    step s = .next { s with inputs := rest, turns := [], hostSeen := Memory.readWord s.mem a.toNat :: s.hostSeen } := by
  rw [step_agent h (fun he => nomatch he)]
  exact congrArg (fun t : State => (.next { t with turns := [] } : Host.Outcome State Fault Refusal))
    (State.hostRead_eq (s := { s with inputs := rest, turns := ts }) ha)

theorem step_hostWrite {a v : Word} (h : s.inputs = .agent ts (.hostWrite a v) :: rest) (ha : a.toNat < s.params.memSize) :
    step s = .next { s with inputs := rest, turns := [], mem := Memory.writeWord s.mem a.toNat v } := by
  rw [step_agent h (fun he => nomatch he)]
  exact congrArg (fun t : State => (.next { t with turns := [] } : Host.Outcome State Fault Refusal))
    (State.hostWrite_eq (s := { s with inputs := rest, turns := ts }) ha)

theorem State.bitAt_hostRegister (k : Nat) (h : 19 ≤ k) (h' : k < 24) : bitAt s.hostRegister k =
    if k = 19 then s.attention else if k = 20 then s.attentionMask else if k = 21 then s.sleeping else if k = 22 then s.stopMask
    else s.hostInterrupt := by
  simp only [State.hostRegister, bitAt_setBitAt]
  split_ifs <;> first | rfl | omega

theorem State.tick_frame (c : ClockSource) : s.tick c = { s with icr := (s.tick c).icr } := by
  unfold State.tick
  split
  · simp [State.record]
  · rfl

theorem State.bitAt_tick_icr (c : ClockSource) (k : Nat) :
    bitAt (s.tick c).icr k = (bitAt s.icr k || (bitAt s.sync c.bit && decide (k = 20))) := by
  unfold State.tick
  split
  next h => rw [h, Bool.true_and, bitAt_record_icr]; rfl
  next h => rw [Bool.eq_false_of_not_eq_true h, Bool.false_and, Bool.or_false]

end

/-! ### The host between two accesses (R114, R126) -/

section

variable {s : State} {rest : Turns} {es : List AgentEvent}

theorem State.gap_cons (h : s.turns = es :: rest) : s.gap = es.foldl State.hostAccess { s with turns := rest } := by
  rw [State.gap, State.popTurn, h]

/-- Reads and writes of the host's in a gap come one after another. -/
theorem State.gap_hostRead {a : Word} (h : s.turns = (.hostRead a :: es) :: rest) (ha : a.toNat < s.params.memSize) :
    s.gap = State.gap { s with turns := es :: rest, hostSeen := Memory.readWord s.mem a.toNat :: s.hostSeen } := by
  rw [State.gap_cons h, State.gap_cons rfl, List.foldl_cons]
  exact congrArg (es.foldl State.hostAccess) (State.hostRead_eq (s := { s with turns := rest }) ha)

theorem State.gap_hostWrite {a v : Word} (h : s.turns = (.hostWrite a v :: es) :: rest) (ha : a.toNat < s.params.memSize) :
    s.gap = State.gap { s with turns := es :: rest, mem := Memory.writeWord s.mem a.toNat v } := by
  rw [State.gap_cons h, State.gap_cons rfl, List.foldl_cons]
  exact congrArg (es.foldl State.hostAccess) (State.hostWrite_eq (s := { s with turns := rest }) ha)

end

/-! ### A step of the pipeline (R430, R530) -/

theorem State.pipelineStep_nil {s : State} (h : s.queue = []) : s.pipelineStep = s := by
  rw [State.pipelineStep, h]

theorem State.pipelineStep_cons {s : State} {c : Command} {rest : List Command} (h : s.queue = c :: rest) :
    s.pipelineStep = State.apply { s with queue := rest } c := by
  rw [State.pipelineStep, h]

theorem State.settle_queue (s : State) : s.settle.queue = [] :=
  (congrArg State.queue (State.foldl_apply_withChannel { s with queue := [] } s.rsr [] s.queue) :)

/-- Settles O36: a step is the event it takes from the list; a gap takes the host's accesses one by one; and that settling goes on from a step of
the pipeline holds as what the units do does not depend on the queue. -/
theorem otherAgentsActBetweenCycles : Obligations.OtherAgentsActBetweenCycles := by
  refine ⟨fun s ts rest => ⟨fun c b hc h => ?tick, fun v h => ?register, fun a h ha => ?read, fun a v h hinv ha => ?write,
    fun t h ht => ?pipeline⟩, fun s => ⟨fun h => ?empty, fun c rest h => ?oldest, s.settle_queue⟩,
    fun s => ⟨s.gap_frame, State.gap_nil, fun es rest => ⟨fun h => ?none, fun a => State.gap_hostRead, fun a v => State.gap_hostWrite⟩⟩⟩
  case tick =>
    have hbit : c.bit = b := by
      simp only [List.mem_cons, Prod.mk.injEq, List.not_mem_nil, or_false] at hc
      rcases hc with ⟨rfl, rfl⟩ | ⟨rfl, rfl⟩ | ⟨rfl, rfl⟩ | ⟨rfl, rfl⟩ <;> rfl
    subst hbit
    refine ⟨_, step_agent h (fun he => nomatch he), fun k => State.bitAt_tick_icr (s := { s with inputs := rest, turns := ts }) c k, ?_⟩
    exact congrArg (fun t : State => { t with turns := [] }) (State.tick_frame (s := { s with inputs := rest, turns := ts }) c)
  case register =>
    refine ⟨_, step_agent h (fun he => nomatch he), fun k hk hk' => ?_, rfl, rfl, rfl⟩
    rw [State.bitAt_hostRegister k hk hk']
    have hbits : k = 19 ∨ k = 20 ∨ k = 21 ∨ k = 22 ∨ k = 23 := by omega
    rcases hbits with rfl | rfl | rfl | rfl | rfl <;> rfl
  case read => exact step_hostRead h ha
  case write =>
    exact ⟨_, step_hostWrite h ha,
      State.onlyStore_writeWord (s := { s with inputs := rest, turns := [] }) ⟨hinv.memory, hinv.settledBit⟩ a.toNat v [], rfl⟩
  case pipeline =>
    subst ht
    refine ⟨step_pipeline h, fun hr => ?_⟩
    rw [step_pipeline h, State.testB_of_not_raised 1 hr]
  case empty => exact ⟨State.pipelineStep_nil h, State.settle_of_empty h⟩
  case oldest =>
    refine ⟨State.pipelineStep_cons h, ?_, s.settle_pipelineStep.symm⟩
    rw [State.pipelineStep_cons h, State.apply_queue]
  case none => rw [State.gap_cons h, List.foldl_nil]

end Sys2Proof.Machine
end

section
/-!
What survives the units of the pipeline (R430, R530): a predicate that output and the units' own registers do not break; so the registers
of the Channel Control but WP and WC stay when the pipeline settles, and DIRECTIVE but HIT.
-/

namespace Sys2Proof.Machine

/-- `P` survives a word of output with what the host does after it, changes of the units' own registers and of HIT, and a scope violation
raised. -/
structure UnitRun (P : State → Prop) : Prop where
  output : ∀ (s : State) v, P s → P (s.outputWord v).gap
  units : ∀ (s : State) mm cd dir scope freeIx, (∀ k, k ≠ 21 → bitAt dir k = bitAt s.dir k) → P s →
    P { s with mm := mm, cd := cd, dir := dir, scope := scope, freeIx := freeIx }
  violation : ∀ s : State, P s → P (s.raise .scopeViolation)

namespace UnitRun

variable {P : State → Prop} (hP : UnitRun P) {s : State}

include hP

theorem outputWords (ws : List Word) (h : P s) : P (s.outputWords ws) := by
  induction ws generalizing s with
  | nil => exact h
  | cons v ws ih => exact ih (hP.output s v h)

theorem useFree (n : Nat) (h : P s) : P (s.useFree n) :=
  hP.units s s.mm s.cd s.dir s.scope (s.freeIx + n) (fun _ _ => rfl) h

theorem mmRoute (q : Tuple) (h : P s) : P (s.mmRoute q).1 := by
  unfold State.mmRoute
  cases s.mdir.mom
  · exact h
  · exact hP.useFree 32 (hP.outputWords _ h)

theorem setMm (a : DevAddr) (j : Fin 4) (v : Word) (h : P s) : P (s.setMm a j v) :=
  hP.units s _ s.cd s.dir s.scope s.freeIx (fun _ _ => rfl) h

theorem mmStepRow (a b : DevAddr) (h : P s) : P (s.mmStepRow a b) := by
  rw [State.mmStepRow_eq]
  exact hP.setMm _ _ _ (hP.setMm _ _ _ (hP.setMm _ _ _ (hP.setMm _ _ _ h)))

theorem curvePass (m : Nat) (h : P s) : P (s.curvePass m) :=
  hP.mmStepRow _ _ (hP.mmStepRow _ _ (hP.mmStepRow _ _ (hP.mmStepRow _ _ h)))

theorem curve2d (op : DrawOp) (h : P s) : P (s.curve2d op).1 := by
  by_cases hop : op = .setPoint
  · subst hop
    exact h
  · rw [State.curve2d_moves hop]
    exact hP.setMm _ _ _ (hP.setMm _ _ _ h)

theorem mmDraw (c : Command) (h : P s) : P (s.mmDraw c).1 := by
  unfold State.mmDraw
  split
  case h_1 p hp =>
    unfold State.mmDrawData
    split
    · split
      · exact hP.mmRoute _ (hP.useFree 4 h)
      · split
        · exact hP.mmRoute _ h
        · exact hP.mmRoute _ h
    · exact h
  case h_2 hp =>
    cases hactive : c.mma && s.mdir.curve with
    | false => rw [State.mmDrawDataless_idle hactive]; exact h
    | true =>
      cases hdim : c.dim.is2d <;> by_cases hbox : c.op = .box
      · rw [hbox, State.mmDrawDataless_box3d hactive hdim]
        exact hP.curvePass 2 (hP.curvePass 1 (hP.curvePass 0 h))
      · rw [State.mmDrawDataless_3d hactive hdim hbox]
        exact hP.mmRoute _ (hP.mmStepRow 2 3 (hP.mmStepRow 1 2 (hP.mmStepRow 0 1 h)))
      · rw [hbox, State.mmDrawDataless_box2d hactive hdim]
        exact hP.units s _ s.cd s.dir s.scope _ (fun _ _ => rfl) h
      · rw [State.mmDrawDataless_2d hactive hdim hbox]
        exact hP.mmRoute _ (hP.curve2d _ h)

theorem cdMemOut (d : Bool) (e p : Point3) (h : P s) : P (s.cdMemOut d e p) := by
  unfold State.cdMemOut
  split
  · exact hP.outputWords _ h
  · exact h

theorem emit (k : EmitKind) (x y z : Word) (h : P s) : P (s.emit k x y z) :=
  hP.units s s.mm s.cd s.dir _ s.freeIx (fun _ _ => rfl) h

theorem emitLine (d : Bool) (e0 e1 : Point3) (h : P s) : P (s.emitLine d e0 e1) := by
  rw [State.emitLine_eq]
  have hraise : P (s.raiseIf s.cd.violation .scopeViolation) := by
    cases s.cd.violation
    · exact h
    · exact hP.violation s h
  refine hP.emit _ _ _ _ ?_
  split
  · exact hraise
  · exact hP.emit _ _ _ _ hraise

theorem showPart (d : Bool) (e0 e1 page : Point3) (h : P s) : P (s.showPart d e0 e1 page) := by
  have hhit : P s.setHit := hP.units s s.mm s.cd _ s.scope s.freeIx (fun k hk => by simp [hk]) h
  have hout : P (s.setHit.cdMemOut d e1 page) := hP.cdMemOut _ _ _ hhit
  unfold State.showPart
  dsimp only
  split
  · exact hP.emitLine _ _ _ hout
  · exact hout

theorem partIfVisible (d : Bool) (p q : CdPoint) (v : Option Span) (h : P s) : P (s.partIfVisible d p q v) := by
  cases v with
  | none => exact h
  | some v => exact hP.useFree 32 (hP.showPart _ _ _ _ h)

theorem line (p q : Tuple) (h : P s) : P (s.line p q) := by
  have hcounts : P (s.countsUpdate.useFree 2) := hP.useFree 2 (hP.units s s.mm _ s.dir s.scope s.freeIx (fun _ _ => rfl) h)
  cases p with
  | two x y => exact hP.partIfVisible _ _ _ _ hcounts
  | four x y z w =>
    refine (?_ : P (State.line3d _ _ _ _ _))
    unfold State.line3d
    split
    · exact hP.partIfVisible _ _ _ _ (hP.useFree 1 hcounts)
    · exact hP.partIfVisible _ _ _ _ (hP.partIfVisible _ _ _ _ hcounts)

theorem setSave (n : Tuple) (h : P s) : P (s.setSave n) := by
  cases n <;> exact hP.units s s.mm _ s.dir s.scope s.freeIx (fun _ _ => rfl) h

theorem cdDraw (cda : Bool) (op : DrawOp) (q : Tuple) (h : P s) : P (s.cdDraw cda op q) := by
  unfold State.cdDraw
  split
  case isFalse => exact h
  case isTrue =>
    cases op
    case setPoint => exact hP.useFree 16 (hP.emit _ _ _ _ (hP.cdMemOut _ _ _ (hP.setSave _ h)))
    case drawTo | dot => exact hP.setSave _ (hP.line _ _ h)
    case drawFrom => exact hP.line _ _ h
    case box => exact hP.units s s.mm _ s.dir s.scope _ (fun _ _ => rfl) h

theorem apply (c : Command) (h : P s) : P (s.apply c) := by
  cases hq : (s.mmDraw c).2 with
  | none => rw [State.apply_of_none hq]; exact hP.mmDraw c h
  | some q => rw [State.apply_of_some hq]; exact hP.cdDraw _ _ _ (hP.mmDraw c h)

theorem settle (hqueue : P { s with queue := [] }) : P s.settle := by
  unfold State.settle
  generalize ({ s with queue := [] } : State) = t at hqueue
  induction s.queue generalizing t with
  | nil => exact hqueue
  | cons c l ih => exact ih _ (hP.apply c hqueue)

end UnitRun

/-! ### The registers of the Channel Control -/

theorem State.outputWord_reg (s : State) (v : Word) {k : Reg} (hp : k ≠ Reg.wp) (hc : k ≠ Reg.wc) :
    (s.outputWord v).reg k = s.reg k := by
  by_cases hstop : (s.params.wcStopsOutput && decide (s.reg Reg.wc = 0)) = true
  · rw [State.outputWord, if_pos hstop]
  · have hgo : s.params.wcStopsOutput = false ∨ s.reg Reg.wc ≠ 0 := by
      simpa [← Bool.not_eq_true, ← not_and_or] using hstop
    cases hw : s.memWrite (s.reg Reg.wp) v with
    | ok t => rw [State.outputWord_of_ok hgo hw, State.outputCounted_reg, if_neg hc, if_neg hp, State.memWrite_frame hw]; rfl
    | error c => rw [State.outputWord_of_error hgo hw, State.outputCounted_reg, if_neg hc, if_neg hp, State.reg_raise]

theorem unitRun_reg {k : Reg} (hp : k ≠ Reg.wp) (hc : k ≠ Reg.wc) (w : Word) : UnitRun (fun s => s.reg k = w) where
  output s v h := by rw [State.reg_gap, s.outputWord_reg v hp hc, h]
  units _ _ _ _ _ _ _ h := h
  violation _ h := h

/-- Settling leaves every register but WP and WC. -/
theorem State.settle_reg (s : State) {k : Reg} (hp : k ≠ Reg.wp) (hc : k ≠ Reg.wc) : s.settle.reg k = s.reg k :=
  (unitRun_reg hp hc (s.reg k)).settle rfl

/-- A word of output leaves DIRECTIVE as it is. -/
theorem State.outputWord_dir (s : State) (v : Word) : (s.outputWord v).dir = s.dir := by
  by_cases hstop : (s.params.wcStopsOutput && decide (s.reg Reg.wc = 0)) = true
  · rw [State.outputWord, if_pos hstop]
  · have hgo : s.params.wcStopsOutput = false ∨ s.reg Reg.wc ≠ 0 := by
      simpa [← Bool.not_eq_true, ← not_and_or] using hstop
    cases hw : s.memWrite (s.reg Reg.wp) v with
    | ok t => rw [State.outputWord_of_ok hgo hw, State.outputCounted_frame, State.memWrite_frame hw]
    | error c => rw [State.outputWord_of_error hgo hw, State.outputCounted_frame]; rfl

/-- The units change no bit of DIRECTIVE but HIT. -/
theorem unitRun_dir {k : Nat} (hk : k ≠ 21) (b : Bool) : UnitRun (fun s => bitAt s.dir k = b) where
  output s v h := by rw [State.gap_dir, State.outputWord_dir, h]
  units _ _ _ _ _ _ hdir h := (hdir k hk).trans h
  violation _ h := h

/-- Settling leaves the mode of drawing as it is. -/
theorem State.settle_dim (s : State) : s.settle.dim = s.dim := by
  have hbit {k : Nat} (hk : k ≠ 21) : bitAt s.settle.dir k = bitAt s.dir k := (unitRun_dir hk (bitAt s.dir k)).settle rfl
  rw [State.dim, State.dim, hbit (by decide), hbit (by decide)]

end Sys2Proof.Machine
end

section
/-!
The drawing instructions: the words of a point, REPEAT STATUS, and one drawing step (R493 to R500, R505, R511).
-/

namespace Sys2Proof.Machine

/-! ### The words of a point (R493, R495) -/

/-- The words fetched, in order. -/
def Fetched.words : Fetched → List Word
  | .two d0 d1 => [d0, d1]
  | .three d0 d1 d2 => [d0, d1, d2]
  | .four d0 d1 d2 d3 => [d0, d1, d2, d3]

theorem State.formPoint_words (s : State) (form : Form) (d : Fetched) : (s.formPoint form d).words = s.pointWords form d.words := by
  cases d <;> cases form <;> rfl

theorem State.pointWords_congr {s t : State} (hd : t.dim = s.dim) (hx : ∀ k < 4, t.reg (Reg.x + Fin.ofNat 16 k) = s.reg (Reg.x + Fin.ofNat 16 k))
    (form : Form) {ds : List Word} (hl : ds.length ≤ 4) : t.pointWords form ds = s.pointWords form ds := by
  have hmap : ds.mapIdx (fun k v => if form = .absolute then v else t.reg (Reg.x + Fin.ofNat 16 k) + v) =
      ds.mapIdx fun k v => if form = .absolute then v else s.reg (Reg.x + Fin.ofNat 16 k) + v :=
    List.mapIdx_eq_mapIdx_iff.mpr fun k hk => by rw [hx k (by omega)]
  rw [State.pointWords, hmap, hd]
  rfl

theorem eq_of_length_four {α : Type} {l : List α} (h : l.length = 4) : ∃ a b c d, l = [a, b, c, d] := by
  match l, h with
  | [a, b, c, d], _ => exact ⟨a, b, c, d, rfl⟩

section

variable {s v : State} {a : Word} {c : Cond} {ds : List Word}

theorem State.readPoint_ok (hl : ds.length = s.dim.nf.toNat) (h : s.reads a 1 ds v) : ∃ d : Fetched, d.words = ds ∧ s.readPoint a = .ok (d, v) := by
  cases hd : s.dim <;> rw [hd] at hl
  case twoD =>
    obtain ⟨d0, d1, rfl⟩ := List.length_eq_two.mp hl
    obtain ⟨h0, h1, rfl⟩ := h
    refine ⟨.two d0 d1, rfl, ?_⟩
    simp only [State.readPoint, State.readFirst_ok h0, State.readNext_ok h1, ok_bind, hd]
    rfl
  case homog =>
    obtain ⟨d0, d1, d2, d3, rfl⟩ := eq_of_length_four hl
    obtain ⟨h0, h1, h2, h3, rfl⟩ := h
    rw [add_three] at h3
    rw [add_two] at h2
    refine ⟨.four d0 d1 d2 d3, rfl, ?_⟩
    simp only [State.readPoint, State.readFirst_ok h0, State.readNext_ok h1, State.readNext_ok h2, State.readNext_ok h3, ok_bind, hd]
    rfl
  case mm3d | cd3d =>
    obtain ⟨d0, d1, d2, rfl⟩ := List.length_eq_three.mp hl
    obtain ⟨h0, h1, h2, rfl⟩ := h
    rw [add_two] at h2
    refine ⟨.three d0 d1 d2, rfl, ?_⟩
    simp only [State.readPoint, State.readFirst_ok h0, State.readNext_ok h1, State.readNext_ok h2, ok_bind, hd]
    rfl

theorem State.readPoint_stops (hl : ds.length < s.dim.nf.toNat) (h : s.readStops a 1 ds c v) :
    s.readPoint a = .error (c, BitVec.ofNat 24 ds.length, v) := by
  have hfour : ds.length < 4 := hl.trans_le (by cases s.dim <;> decide)
  rcases length_lt_four hfour with rfl | ⟨d0, rfl⟩ | ⟨d0, d1, rfl⟩ | ⟨d0, d1, d2, rfl⟩
  case inl =>
    obtain ⟨h0, rfl⟩ := h
    simp only [State.readPoint, State.readFirst_error h0, error_bind]
    rfl
  case inr.inl =>
    obtain ⟨h0, h1, rfl⟩ := h
    simp only [State.readPoint, State.readFirst_ok h0, State.readNext_error h1, ok_bind, error_bind]
    rfl
  case inr.inr.inl =>
    obtain ⟨h0, h1, h2, rfl⟩ := h
    rw [add_two] at h2
    cases hd : s.dim <;> rw [hd] at hl
    case twoD => simp [Dim.nf] at hl
    all_goals
      simp only [State.readPoint, State.readFirst_ok h0, State.readNext_ok h1, State.readNext_error h2, ok_bind, error_bind, hd]
      rfl
  case inr.inr.inr =>
    obtain ⟨h0, h1, h2, h3, rfl⟩ := h
    rw [add_three] at h3
    rw [add_two] at h2
    cases hd : s.dim <;> rw [hd] at hl
    case homog =>
      simp only [State.readPoint, State.readFirst_ok h0, State.readNext_ok h1, State.readNext_ok h2, State.readNext_error h3, ok_bind,
        error_bind, hd]
      rfl
    all_goals simp [Dim.nf] at hl

end

/-! ### REPEAT STATUS in a drawing sequence (R53, R505) -/

section

variable {s t : State} {f1 g1 : Fsm1} {f2 g2 : Fsm2} {rep : Bool}

theorem State.drawRecorded_congr (h : t.rsr = s.rsr) (hs : s.drawRecorded f1 f2 rep) : t.drawRecorded f1 f2 rep := by
  unfold State.drawRecorded State.repeatBit at hs ⊢
  rwa [h]

theorem fsm1Code_lt (f : Fsm1) : fsm1Code f < 8 := by cases f <;> decide

theorem fsm2Code_lt (f : Fsm2) : fsm2Code f < 8 := by cases f <;> decide

/-- The two states recorded in a drawing sequence. -/
theorem State.setRsrFsm_drawRecorded (h : fieldAt s.rsr 2 4 = 4) : (s.setRsrFsm f1 f2).drawRecorded f1 f2 s.repeatBit := by
  refine ⟨?_, ?_, ?_, ?_⟩
  · rw [State.setRsrFsm, fieldAt_setFieldAt_of_disjoint _ _ (by decide) (by decide) (by decide),
      fieldAt_setFieldAt_of_disjoint _ _ (by decide) (by decide) (by decide), h]
  · rw [State.setRsrFsm, fieldAt_setFieldAt_of_disjoint _ _ (by decide) (by decide) (by decide), fieldAt_setFieldAt_self _ _ (by decide)]
    exact Nat.mod_eq_of_lt (fsm1Code_lt f1)
  · rw [State.setRsrFsm, fieldAt_setFieldAt_self _ _ (by decide)]
    exact Nat.mod_eq_of_lt (fsm2Code_lt f2)
  · exact (bitAt_setFieldAt_of_disjoint _ _ (by decide) (by decide) (by decide)).trans
      (bitAt_setFieldAt_of_disjoint _ _ (by decide) (by decide) (by decide))

theorem State.drawRecorded.setRsrFsm (h : s.drawRecorded g1 g2 rep) : (s.setRsrFsm f1 f2).drawRecorded f1 f2 rep := by
  obtain ⟨htype, -, -, rfl⟩ := h
  exact State.setRsrFsm_drawRecorded htype

theorem State.beginDraw_drawRecorded (s : State) (f1 : Fsm1) (f2 : Fsm2) : (s.beginDraw f1 f2).drawRecorded f1 f2 true := by
  have htype : fieldAt (setBitAt (setFieldAt s.rsr 2 4 4) 23 true) 2 4 = 4 := by
    rw [fieldAt_setBitAt_of_disjoint _ _ (by decide) (by decide), fieldAt_setFieldAt_self _ _ (by decide)]
    rfl
  have h := State.setRsrFsm_drawRecorded (s := { s with rsr := setBitAt (setFieldAt s.rsr 2 4 4) 23 true }) (f1 := f1) (f2 := f2) htype
  rwa [State.repeatBit, bitAt_setBitAt, if_pos (by decide)] at h

theorem State.drawRecorded.endRepeat (h : s.drawRecorded f1 f2 rep) : s.endRepeat.drawRecorded f1 f2 false := by
  obtain ⟨htype, h1, h2, -⟩ := h
  refine ⟨?_, ?_, ?_, State.endRepeat_repeatBit s⟩
  · rwa [State.endRepeat_type]
  · rwa [State.endRepeat, fieldAt_setBitAt_of_disjoint _ _ (by decide) (by decide)]
  · rwa [State.endRepeat, fieldAt_setBitAt_of_disjoint _ _ (by decide) (by decide)]

end

/-! ### One drawing step (R495) -/

section

variable (s : State) (op : DrawOp) (form : Form) (d : Fetched)

theorem movesPoint_and_updates : (form.updates && op.movesPoint) = movesCurrentPoint op form := by
  cases op <;> cases form <;> rfl

theorem State.setRegTuple_x_reg (p : Tuple) (k : Reg) :
    (s.setRegTuple Reg.x p).reg k = if 8 ≤ k.val then p.words.getD (k.val - 8) (s.reg k) else s.reg k := by
  have hk : Reg.x + (k - Reg.x) = k := add_sub_cancel _ _
  have hreg := s.reg_setRegTuple Reg.x (k - Reg.x) p
  rw [hk] at hreg
  rw [hreg, Fin.sub_def]
  dsimp only
  have hl : p.words.length ≤ 4 := by rw [length_words]; split <;> decide
  split
  · congr 1
    simp only [Reg.x]
    omega
  · exact List.getD_eq_default _ _ (by simp only [Reg.x]; omega)

/-- The channel registers of one step, and the command at the end of the queue. -/
def State.stepSent (p : Tuple) : State :=
  { (if movesCurrentPoint op form then s.setRegTuple Reg.x p else s) with queue := s.queue ++ [s.command op form (some p)] }

theorem State.drawStep_eq : s.drawStep op form d =
    if bitAt s.dir 4 then (s.stepSent op form (s.formPoint form d)).gap.settle else s.stepSent op form (s.formPoint form d) := by
  unfold State.drawStep State.stepSent
  rw [movesPoint_and_updates]
  cases movesCurrentPoint op form <;> cases s.formPoint form d <;> rfl

theorem State.drawStep_drawn : s.drawn (s.drawStep op form d) op form (s.formPoint form d) := by
  refine ⟨s.stepSent op form (s.formPoint form d), fun k => ?_, ?_, s.drawStep_eq op form d⟩
  · unfold State.stepSent
    split
    · exact s.setRegTuple_x_reg _ k
    · rfl
  · unfold State.stepSent
    split
    · exact congrArg (fun t : State => { t with queue := s.queue ++ [s.command op form (some (s.formPoint form d))] })
        (s.setRegTuple_frame Reg.x (s.formPoint form d))
    · rfl

theorem State.gap_withRsr (w : Word) : State.gap { s with rsr := w } = { s.gap with rsr := w } :=
  (s.gap_withChannel w s.queue).trans (congrArg (State.withChannel s.gap w) s.gap_queue.symm)

/-- REPEAT STATUS does not matter to a drawing step. -/
theorem State.drawStep_withRsr (w : Word) : State.drawStep { s with rsr := w } op form d = { s.drawStep op form d with rsr := w } := by
  have hsent : State.stepSent { s with rsr := w } op form (State.formPoint { s with rsr := w } form d) =
      { s.stepSent op form (s.formPoint form d) with rsr := w } := by
    rw [show State.formPoint { s with rsr := w } form d = s.formPoint form d by cases form <;> rfl]
    unfold State.stepSent
    cases movesCurrentPoint op form <;> cases s.formPoint form d <;> rfl
  rw [State.drawStep_eq, State.drawStep_eq, hsent]
  cases bitAt s.dir 4 with
  | false => rfl
  | true => rw [if_pos rfl, if_pos rfl, State.gap_withRsr, State.settle_withRsr]

theorem State.drawStep_rsr : (s.drawStep op form d).rsr = s.rsr :=
  have h : s.drawStep op form d = { s.drawStep op form d with rsr := s.rsr } := s.drawStep_withRsr op form d s.rsr
  (congrArg State.rsr h :)

/-- A drawing step changes no register of the Channel Control but the current point, WP and WC. -/
theorem State.drawStep_reg {k : Reg} (hk : k.val < 8 ∨ 12 ≤ k.val) (hp : k ≠ Reg.wp) (hc : k ≠ Reg.wc) :
    (s.drawStep op form d).reg k = s.reg k := by
  have hsent : (s.stepSent op form (s.formPoint form d)).reg k = s.reg k := by
    unfold State.stepSent
    split
    · have hl : (s.formPoint form d).words.length ≤ 4 := by rw [length_words]; split <;> decide
      refine (s.setRegTuple_x_reg _ k).trans ?_
      split
      · exact List.getD_eq_default _ _ (by omega)
      · rfl
    · rfl
  rw [State.drawStep_eq]
  split
  · rw [State.settle_reg _ hp hc, State.reg_gap, hsent]
  · exact hsent

end

theorem State.dim_gap (s : State) : s.gap.dim = s.dim := by rw [State.dim, State.gap_dir]; rfl

/-! ### The point of a table draw (R500, R511) -/

/-- The words `ds` of the point of a table draw are read, directly or through the word at RP, and RP steps on (R500). -/
def State.pointReads (s : State) (ind idx : Bool) (ds : List Word) (v : State) : Prop :=
  if ind then ∃ q, s.memRead (s.reg Reg.rp) = .ok q ∧
      (State.gap (s.setReg Reg.rp (s.reg Reg.rp + 1))).reads (if idx then q + s.reg Reg.ir else q) 1 ds v
    else ∃ r : State, s.reads (s.reg Reg.rp) 1 ds r ∧ v = r.setReg Reg.rp (s.reg Reg.rp + s.dim.nf)

section

variable {s v : State} {ind idx : Bool} {ds : List Word} {c : Cond} {moved : Word}

/-- Reading a point changes RP, and memory as the host changes it. -/
theorem State.pointReads_frame (h : s.pointReads ind idx ds v) : v = ({ s with regs := v.regs } : State).withMemory v ∧
    ∀ k, k ≠ Reg.rp → v.reg k = s.reg k := by
  unfold State.pointReads at h
  split at h
  · obtain ⟨q, -, hr⟩ := h
    have hv := State.reads_frame hr
    rw [State.gap_frame] at hv
    refine ⟨?_, fun k hk => ?_⟩
    · rw [hv]
      rfl
    · rw [hv]
      exact State.reg_setReg_of_ne s _ hk
  · obtain ⟨r, hr, rfl⟩ := h
    refine ⟨?_, fun k hk => ?_⟩
    · rw [State.reads_frame hr]
      rfl
    · rw [State.reg_setReg_of_ne _ _ hk, State.reads_frame hr]
      rfl

theorem State.pointReads_withRsr (h : s.pointReads ind idx ds v) (w : Word) :
    State.pointReads { s with rsr := w } ind idx ds { v with rsr := w } := by
  unfold State.pointReads at h ⊢
  split at h
  next hi =>
    rw [if_pos hi]
    obtain ⟨q, hq, hr⟩ := h
    refine ⟨q, hq, ?_⟩
    have hview : State.SameView { (s.setReg Reg.rp (s.reg Reg.rp + 1)).gap with rsr := w } (s.setReg Reg.rp (s.reg Reg.rp + 1)).gap :=
      ⟨rfl, rfl, rfl, rfl, rfl, rfl, rfl⟩
    have hv : State.withMemory { (s.setReg Reg.rp (s.reg Reg.rp + 1)).gap with rsr := w } v = { v with rsr := w } :=
      (congrArg (fun t : State => { t with rsr := w }) (State.reads_frame hr)).symm
    have hx := hview.reads hr
    rw [hv, ← State.gap_withRsr] at hx
    exact hx
  next hi =>
    rw [if_neg hi]
    obtain ⟨r, hr, rfl⟩ := h
    have hview : State.SameView { s with rsr := w } s := ⟨rfl, rfl, rfl, rfl, rfl, rfl, rfl⟩
    refine ⟨_, hview.reads hr, ?_⟩
    rw [State.reads_frame hr]
    rfl

theorem State.tablePoint_ok (hl : ds.length = s.dim.nf.toNat) (h : s.pointReads ind idx ds v) :
    ∃ d : Fetched, d.words = ds ∧ s.tablePoint ind idx = .ok (d, v) := by
  unfold State.pointReads at h
  cases ind with
  | false =>
    obtain ⟨r, hr, rfl⟩ := h
    obtain ⟨d, hd, hpoint⟩ := State.readPoint_ok hl hr
    refine ⟨d, hd, ?_⟩
    have hdim : r.dim = s.dim := by rw [State.reads_frame hr]; rfl
    simp only [State.tablePoint, hpoint, hdim]
    rfl
  | true =>
    obtain ⟨q, hq, hr⟩ := h
    have hdim : (s.setReg Reg.rp (s.reg Reg.rp + 1)).gap.dim = s.dim := State.dim_gap _
    have hir : (s.setReg Reg.rp (s.reg Reg.rp + 1)).gap.reg Reg.ir = s.reg Reg.ir := by
      rw [State.reg_gap, State.reg_setReg_of_ne _ _ (by decide)]
    obtain ⟨d, hd, hpoint⟩ := State.readPoint_ok (hdim.symm ▸ hl) hr
    refine ⟨d, hd, ?_⟩
    simp only [State.tablePoint, hq, hir, hpoint]
    rfl

end

end Sys2Proof.Machine
end

section
/-!
The single draw, the table draws of one operation, and the instructions that a memory condition abandons (R498, R500, R604).
-/

namespace Sys2Proof.Machine

section

variable {s v r : State} {ind idx : Bool} {ds : List Word} {c : Cond} {moved a : Word}

/-- The words read before a fault, none or some. -/
theorem State.readStops_of_fault (h : (ds = [] ∧ v = r) ∨ ∃ w : State, ds ≠ [] ∧ r.reads a 1 ds w ∧ v = w.gap)
    (he : v.memRead (a + BitVec.ofNat 24 ds.length) = .error c) : r.readStops a 1 ds c v := by
  rcases h with ⟨rfl, rfl⟩ | ⟨w, hne, hw, rfl⟩
  · exact ⟨by simpa using he, rfl⟩
  · exact State.readStops_of_reads hw hne rfl (by simpa using he)

theorem State.pointStops_withRsr (h : s.pointStops ind idx c v moved) (w : Word) :
    State.pointStops { s with rsr := w } ind idx c { v with rsr := w } moved := by
  rcases h with ⟨he, rfl, rfl⟩ | ⟨r, a, ds, hr, hl, hds, he⟩
  · exact .inl ⟨he, rfl, rfl⟩
  · refine .inr ⟨{ r with rsr := w }, a, ds, ?_, hl, ?_, he⟩
    · split at hr
      next hi =>
        obtain ⟨q, hq, rfl, ha, hm⟩ := hr
        rw [if_pos hi]
        exact ⟨q, hq, (s.gap_withRsr w).symm, ha, hm⟩
      next hi =>
        obtain ⟨rfl, ha, hm, hne⟩ := hr
        rw [if_neg hi]
        exact ⟨rfl, ha, hm, hne⟩
    · rcases hds with ⟨hnil, rfl⟩ | ⟨t, hne, ht, rfl⟩
      · exact .inl ⟨hnil, rfl⟩
      · refine .inr ⟨{ t with rsr := w }, hne, ?_, (t.gap_withRsr w).symm⟩
        have hview : State.SameView { r with rsr := w } r := ⟨rfl, rfl, rfl, rfl, rfl, rfl, rfl⟩
        have hx := hview.reads ht
        rwa [show State.withMemory { r with rsr := w } t = { t with rsr := w } from
          (congrArg (fun t : State => { t with rsr := w }) (State.reads_frame ht)).symm] at hx

theorem State.pointStops_frame (h : s.pointStops ind idx c v moved) : v = s.withMemory v := by
  rcases h with ⟨-, rfl, -⟩ | ⟨r, a, ds, hr, -, hds, he⟩
  · rfl
  · have hv := State.readStops_frame (State.readStops_of_fault hds he)
    split at hr
    · obtain ⟨q, -, rfl, -⟩ := hr
      rw [s.gap_frame] at hv
      exact hv
    · obtain ⟨rfl, -⟩ := hr
      exact hv

/-- A condition of the point of a table draw leaves RP past the words read (R511). -/
theorem State.tablePoint_stops (h : s.pointStops ind idx c v moved) :
    s.tablePoint ind idx = .error (c, v.setReg Reg.rp (s.reg Reg.rp + moved)) := by
  rcases h with ⟨he, rfl, rfl⟩ | ⟨r, a, ds, hr, hl, hds, he⟩
  · rw [add_zero, State.setReg_reg]
    cases ind with
    | true => simp only [State.tablePoint, he, if_true]
    | false =>
      have hstop : v.readPoint (v.reg Reg.rp) = .error (c, BitVec.ofNat 24 0, v) :=
        State.readPoint_stops (ds := []) (by cases v.dim <;> decide) ⟨he, rfl⟩
      have hrp : v.reg Reg.rp + BitVec.ofNat 24 0 = v.reg Reg.rp := add_zero _
      simp only [State.tablePoint, hstop, hrp, State.setReg_reg]
      rfl
  · have hstops := State.readStops_of_fault hds he
    cases ind with
    | true =>
      obtain ⟨q, hq, rfl, rfl, rfl⟩ := hr
      have hview : (s.setReg Reg.rp (s.reg Reg.rp + 1)).SameView s := ⟨rfl, rfl, rfl, rfl, rfl, rfl, rfl⟩
      have hx := hview.gap_view.readStops hstops
      have hv : (s.setReg Reg.rp (s.reg Reg.rp + 1)).gap.withMemory v = v.setReg Reg.rp (s.reg Reg.rp + 1) := by
        rw [hview.gap, State.readStops_frame hstops, s.gap_frame]
        rfl
      have hir : (s.setReg Reg.rp (s.reg Reg.rp + 1)).gap.reg Reg.ir = s.reg Reg.ir := by
        rw [State.reg_gap, State.reg_setReg_of_ne _ _ (by decide)]
      rw [hv] at hx
      simp only [State.tablePoint, hq, hir, State.readPoint_stops ((State.dim_gap _).symm ▸ hl) hx]
      rfl
    | false =>
      obtain ⟨rfl, rfl, rfl, -⟩ := hr
      simp only [State.tablePoint, State.readPoint_stops hl hstops]
      rfl

end

/-! ### One operation of a table draw (R498, R500, R505) -/

section

variable {s v : State} {ind idx : Bool} {ds : List Word} {c : Cond} {moved : Word} {f1 g1 : Fsm1} {f2 g2 : Fsm2} {d : Fetched}

theorem State.startDraw_begin (h : s.repeatBit = false) (c : DrawClass) : s.startDraw c f1 f2 = s.runDraw c f1 f2 := by
  unfold State.startDraw
  rw [h]
  rfl

theorem exec_tableDraw : ∀ f ∈ tableDraws, ∀ f1 f2 s,
    exec (f.1 f1 f2) s = .next (s.startDraw (.table f.2.1 f.2.2.1 f.2.2.2) f1 f2) := by
  simp only [tableDraws, List.forall_mem_cons]
  exact ⟨fun _ _ _ => rfl, fun _ _ _ => rfl, fun _ _ _ => rfl, fun _ _ _ => rfl, fun _ _ _ => rfl, fun _ _ _ => rfl, fun _ h => nomatch h⟩

/-- One operation from the point `d`, begun with REPEAT STATUS `w` and ended with the states `g1` and `g2`. -/
def State.drawOnce (v : State) (w : Word) (op : DrawOp) (form : Form) (d : Fetched) (g1 : Fsm1) (g2 : Fsm2) : State :=
  ((State.drawStep { v with rsr := w } op form d).setRsrFsm g1 g2).endRepeat

theorem State.drawOnce_recorded {w : Word} (hw : fieldAt w 2 4 = 4) (op : DrawOp) (form : Form) :
    (v.drawOnce w op form d g1 g2).drawRecorded g1 g2 false ∧
      v.drawOnce w op form d g1 g2 = { v.drawStep op form d with rsr := (v.drawOnce w op form d g1 g2).rsr } := by
  have hstep := v.drawStep_withRsr op form d w
  refine ⟨(State.setRsrFsm_drawRecorded ?_).endRepeat, ?_⟩
  · rw [hstep]
    exact hw
  · rw [State.drawOnce, hstep]
    rfl

theorem State.tableOnce_ok (h : s.tablePoint ind idx = .ok (d, v)) : s.tableOnce ind idx f1 f2 =
    v.drawOnce (v.beginDraw f1 f2).rsr (fsm1Op f1) (fsm2Form f2) d (fsm1Next f1) (fsm2Next f2) := by
  rw [State.tableOnce, h]
  rfl

theorem State.tableDraw_one {n : Nat} {w : Word} (h : s.tablePoint ind idx = .ok (d, { v with rsr := w })) (hrc : bitAt (v.reg Reg.rc) 0 = false) :
    State.tableDraw ind idx (n + 1) f1 f2 s = v.drawOnce w (fsm1Op f1) (fsm2Form f2) d (fsm1Next f1) (fsm2Next f2) := by
  have hreg : (State.drawStep { v with rsr := w } (fsm1Op f1) (fsm2Form f2) d).reg Reg.rc = v.reg Reg.rc :=
    State.drawStep_reg _ _ _ _ (by decide) (by decide) (by decide)
  rw [State.tableDraw, h]
  dsimp only
  rw [State.reg_setRsrFsm, hreg, hrc]
  rfl

theorem iterations_of_positive {rc : Word} (h : bitAt rc 0 = false) : iterations rc = 1 := by
  rw [iterations, h]
  rfl

/-- A table draw that makes one operation. -/
theorem State.tableDraw_once {rep : Bool} (hr : s.repeatBit = false) (hrc : rep = true → bitAt (s.reg Reg.rc) 0 = false)
    (hl : ds.length = s.dim.nf.toNat) (h : s.pointReads ind idx ds v) : ∃ d w, d.words = ds ∧ fieldAt w 2 4 = 4 ∧
      s.startDraw (.table ind idx rep) f1 f2 = v.drawOnce w (fsm1Op f1) (fsm2Form f2) d (fsm1Next f1) (fsm2Next f2) := by
  rw [State.startDraw_begin hr]
  cases rep with
  | false =>
    obtain ⟨d, hd, hpoint⟩ := State.tablePoint_ok hl h
    exact ⟨d, _, hd, (v.beginDraw_drawRecorded f1 f2).1, State.tableOnce_ok hpoint⟩
  | true =>
    have hx := State.pointReads_withRsr h (s.beginDraw f1 f2).rsr
    obtain ⟨d, hd, hpoint⟩ := State.tablePoint_ok (s := s.beginDraw f1 f2) hl hx
    refine ⟨d, _, hd, (s.beginDraw_drawRecorded f1 f2).1, ?_⟩
    have hv : bitAt (v.reg Reg.rc) 0 = false := by rw [(State.pointReads_frame h).2 _ (by decide), hrc rfl]
    rw [State.runDraw, iterations_of_positive (hrc rfl)]
    exact State.tableDraw_one hpoint hv

/-- The point sent, from the words read. -/
theorem State.formPoint_words_of_regs (hd : v.dim = s.dim) (hregs : ∀ k, k ≠ Reg.rp → v.reg k = s.reg k) (form : Form) (hl : ds.length ≤ 4)
    (hds : d.words = ds) : (v.formPoint form d).words = s.pointWords form ds := by
  rw [State.formPoint_words, hds]
  refine State.pointWords_congr hd (fun k hk => hregs _ ?_) form hl
  have hlt : ∀ k : Fin 4, Reg.x + Fin.ofNat 16 k.val ≠ Reg.rp := by decide
  exact hlt ⟨k, hk⟩

theorem Dim.nf_le (d : Dim) : d.nf.toNat ≤ 4 := by cases d <;> decide

end

/-- Settles O50: the tables of the two state machines by evaluation, and the operation by what its point reads. -/
theorem tableDrawsOfOneOperation : Obligations.TableDrawsOfOneOperation := by
  refine ⟨by decide, by decide, fun f hf s v f1 f2 ds hr hrc hl hpoint => ?_⟩
  have hreads : s.pointReads f.2.1 f.2.2.1 ds v := hpoint
  obtain ⟨hv, hregs⟩ := State.pointReads_frame hreads
  obtain ⟨d, w, hd, hw, hdraw⟩ := State.tableDraw_once (f1 := f1) (f2 := f2) hr hrc hl hreads
  obtain ⟨hrecorded, hsame⟩ := State.drawOnce_recorded (v := v) (d := d) (g1 := fsm1Next f1) (g2 := fsm2Next f2) hw (fsm1Op f1) (fsm2Form f2)
  have hdim : v.dim = s.dim := by rw [hv]; rfl
  refine ⟨_, v.drawStep (fsm1Op f1) (fsm2Form f2) d, v.formPoint (fsm2Form f2) d, (exec_tableDraw f hf f1 f2 s).trans (congrArg _ hdraw),
    ?_, v.drawStep_drawn _ _ d, hrecorded, hsame⟩
  exact State.formPoint_words_of_regs hdim hregs _ (hl.trans_le s.dim.nf_le) hd

/-- A single draw that reads its point (R498). -/
theorem State.singleDraw_ok {v r : State} {a : Word} {d : Fetched} (man : Manner) (h : v.readPoint a = .ok (d, r)) :
    v.singleDraw man a = (State.setRsrFsm { r.drawStep (mannerOp man).1 (mannerOp man).2 d with
      rsr := setFieldAt (r.drawStep (mannerOp man).1 (mannerOp man).2 d).rsr 2 4 4 } (opFsm1 (mannerOp man).1) (formFsm2 (mannerOp man).2)) := by
  rw [State.singleDraw, h]

/-- What a single draw leaves in REPEAT STATUS: its operation and form, and the Repeat bit as it was (R505). -/
theorem State.singleDraw_recorded (r : State) (op : DrawOp) (form : Form) (d : Fetched) :
    (State.setRsrFsm { r.drawStep op form d with rsr := setFieldAt (r.drawStep op form d).rsr 2 4 4 } (opFsm1 op) (formFsm2 form)).drawRecorded
      (opFsm1 op) (formFsm2 form) r.repeatBit := by
  have htype : fieldAt (setFieldAt (r.drawStep op form d).rsr 2 4 4) 2 4 = 4 := fieldAt_setFieldAt_self _ _ (by decide)
  have hrep : bitAt (setFieldAt (r.drawStep op form d).rsr 2 4 4) 23 = r.repeatBit :=
    (bitAt_setFieldAt_of_disjoint _ _ (by decide) (by decide) (by decide)).trans (congrArg (bitAt · 23) (r.drawStep_rsr op form d))
  rw [← hrep]
  exact State.setRsrFsm_drawRecorded (s := { r.drawStep op form d with rsr := setFieldAt (r.drawStep op form d).rsr 2 4 4 }) htype

/-- Settles O49: with the words read, one drawing step, of the operation and the form of the manner. -/
theorem singleDrawSendsItsPoint : Obligations.SingleDrawSendsItsPoint := by
  intro s v i x addr e ds he hl hreads f hf
  have hrow : mannerOp f.1 = (f.2.1, f.2.2.1) ∧ opFsm1 f.2.1 = f.2.2.2.1 ∧ formFsm2 f.2.2.1 = f.2.2.2.2 := by
    revert f
    decide
  obtain ⟨hman, hop, hform⟩ := hrow
  have hv := State.reads_frame hreads
  have hdim : (s.afterEA i).dim = s.dim := by rw [State.dim, State.afterEA_dir]; rfl
  have hvdim : v.dim = s.dim := by rw [hv]; exact hdim
  have hregs (k : Reg) : v.reg k = s.reg k := by rw [hv]; exact s.reg_afterEA i k
  have hrep : v.repeatBit = s.repeatBit := by rw [hv]; exact congrArg (bitAt · 23) (s.afterEA_rsr i)
  obtain ⟨d, hd, hpoint⟩ := State.readPoint_ok (hdim ▸ hl) hreads
  have hdraw := State.singleDraw_ok f.1 hpoint
  have hrecorded := v.singleDraw_recorded f.2.1 f.2.2.1 d
  rw [hman] at hdraw
  rw [hop, hform, hrep] at hrecorded
  refine ⟨_, v.drawStep f.2.1 f.2.2.1 d, v.formPoint f.2.2.1 d, congrArg Host.Outcome.next ((State.withEA_ok he _).trans hdraw), ?_,
    v.drawStep_drawn _ _ d, ?_, rfl⟩
  · exact State.formPoint_words_of_regs hvdim (fun k _ => hregs k) _ (hl.trans_le s.dim.nf_le) hd
  · rw [hop, hform]
    exact hrecorded

/-! ### Memory conditions (R602, R604) -/

section

variable {s u v : State} {i : Instr} {c : Cond} {ind idx : Bool} {moved : Word} {f1 : Fsm1} {f2 : Fsm2}

/-- An instruction whose outcome is a condition raised in `u` is abandoned there. -/
theorem abandoned_of_exec {k : State} (h : exec i s = .next k) (hk : k = u.raise c) : ∃ t, exec i s = .next t ∧ u.abandoned t c :=
  ⟨_, h, hk ▸ u.abandoned_raise c⟩

theorem exec_push_error : ∀ f ∈ pushRows, ∀ r1 r2, s.physical (s.reg r2 + f.2.1) = .error c →
    ∃ t, exec (f.1 r1 r2) s = .next t ∧ s.abandoned t c := by
  simp only [pushRows, List.forall_mem_cons, add_zero]
  exact ⟨fun _ _ h => abandoned_of_exec rfl (State.withWrite_error h _), fun _ _ h => abandoned_of_exec rfl (State.withWrite_error h _),
    fun _ _ h => abandoned_of_exec rfl (State.withWrite_error h _), fun _ _ h => abandoned_of_exec rfl (State.withWrite_error h _),
    fun _ _ h => abandoned_of_exec rfl (State.withWrite_error h _), fun _ h => nomatch h⟩

theorem exec_pop_error : ∀ f ∈ popRows, ∀ r1 r2, s.memRead (s.reg r2 + f.2.1) = .error c →
    ∃ t, exec (f.1 r1 r2) s = .next t ∧ s.abandoned t c := by
  simp only [popRows, List.forall_mem_cons, add_zero]
  exact ⟨fun _ _ h => abandoned_of_exec rfl (State.withRead_error h _), fun _ _ h => abandoned_of_exec rfl (State.withRead_error h _),
    fun _ _ h => abandoned_of_exec rfl (State.withRead_error h _), fun _ _ h => abandoned_of_exec rfl (State.withRead_error h _),
    fun _ _ h => abandoned_of_exec rfl (State.withRead_error h _), fun _ h => nomatch h⟩

/-- The instructions with an effective address that raises. -/
theorem exec_ea_error {ii x : Bool} {addr : BitVec 16} {r : Reg} {m : Manner} :
    ∀ f ∈ [(Instr.lo ii r addr, false), (.st ii r addr, false), (.j ii x addr, x), (.pushj ii x addr, x), (.xeq ii x addr, x),
      (.sd ii x m addr, x)], s.ea ii f.2 addr = .error c → ∃ t, exec f.1 s = .next t ∧ s.abandoned t c := by
  simp only [List.forall_mem_cons]
  exact ⟨fun h => abandoned_of_exec rfl (State.withEA_error h _), fun h => abandoned_of_exec rfl (State.withEA_error h _),
    fun h => abandoned_of_exec rfl (State.withEA_error h _), fun h => abandoned_of_exec rfl (State.withEA_error h _),
    fun h => abandoned_of_exec rfl (State.withEA_error h _), fun h => abandoned_of_exec rfl (State.withEA_error h _), fun _ h => nomatch h⟩

/-- The pops of the return stack whose word cannot be read. -/
theorem exec_return_error {r : Reg} {n : BitVec 12} (h : s.memRead (s.reg Reg.sp) = .error c) :
    ∀ i ∈ [Instr.regjs r n, .popj, .popjof n], ∃ t, exec i s = .next t ∧ s.abandoned t c := by
  simp only [List.forall_mem_cons]
  exact ⟨abandoned_of_exec rfl (State.withRead_error h _), abandoned_of_exec rfl (State.withRead_error h _),
    abandoned_of_exec rfl (State.withRead_error h _), fun _ h => nomatch h⟩

/-- A single draw whose point cannot be read whole. -/
theorem exec_sd_error {ii x : Bool} {addr : BitVec 16} {m : Manner} {e : Word} {ds : List Word} (he : s.ea ii x addr = .ok e)
    (hl : ds.length < s.dim.nf.toNat) (h : (s.afterEA ii).readStops e 1 ds c v) :
    ∃ t, exec (.sd ii x m addr) s = .next t ∧ v.abandoned t c := by
  have hdim : (s.afterEA ii).dim = s.dim := by rw [State.dim, State.afterEA_dir]; rfl
  have hdraw : (s.afterEA ii).singleDraw m e = v.raise c := by
    rw [State.singleDraw, State.readPoint_stops (hdim ▸ hl) h]
  exact abandoned_of_exec rfl ((State.withEA_ok he _).trans hdraw)

/-- A table draw without repeat whose point cannot be read. -/
theorem State.tableOnce_stops (h : s.pointStops ind idx c v moved) : s.tableOnce ind idx f1 f2 = v.raise c := by
  have hv : { v.setReg Reg.rp (s.reg Reg.rp + moved) with regs := s.regs } = v := by
    rw [State.pointStops_frame h]
    rfl
  rw [State.tableOnce, State.tablePoint_stops h]
  exact congrArg (State.raise · c) hv

/-- A table draw with repeat whose point cannot be read keeps RP past the words read, and its states with Repeat set (R511). -/
theorem State.tableDraw_stops {n : Nat} (h : s.pointStops ind idx c v moved) :
    State.tableDraw ind idx (n + 1) f1 f2 s = (v.setReg Reg.rp (s.reg Reg.rp + moved)).raise c := by
  rw [State.tableDraw, State.tablePoint_stops h]

theorem iterations_pos (rc : Word) : ∃ n, iterations rc = n + 1 := by
  refine Nat.exists_eq_succ_of_ne_zero ?_
  unfold iterations
  split
  · have := rc.isLt
    omega
  · exact one_ne_zero

end

/-- What a table draw stopped in its first operation leaves (R511). -/
theorem exec_tableDraw_stops {s v : State} {c : Cond} {moved : Word} {f : (Fsm1 → Fsm2 → Instr) × Bool × Bool × Bool} (hf : f ∈ tableDraws)
    (f1 : Fsm1) (f2 : Fsm2) (hr : s.repeatBit = false) (h : s.pointStops f.2.1 f.2.2.1 c v moved) :
    ∃ t, exec (f.1 f1 f2) s = .next t ∧ (f.2.2.2 = false → v.abandoned t c) ∧
      (f.2.2.2 = true → State.abandoned { v with regs := t.regs, rsr := t.rsr } t c ∧ t.reg Reg.rp = s.reg Reg.rp + moved ∧
        (∀ k, k ≠ Reg.rp → t.reg k = s.reg k) ∧ t.drawRecorded f1 f2 true) := by
  refine ⟨_, exec_tableDraw f hf f1 f2 s, fun hrep => ?_, fun hrep => ?_⟩
  · rw [State.startDraw_begin hr, hrep, State.runDraw, State.tableOnce_stops h]
    exact v.abandoned_raise c
  · obtain ⟨n, hn⟩ := iterations_pos (s.reg Reg.rc)
    have hx := State.pointStops_withRsr h (s.beginDraw f1 f2).rsr
    rw [State.startDraw_begin hr, hrep, State.runDraw, hn, State.tableDraw_stops (s := s.beginDraw f1 f2) hx]
    refine ⟨State.abandoned_raise _ c, ?_, fun k hk => ?_, State.drawRecorded_congr rfl (s.beginDraw_drawRecorded f1 f2)⟩
    · rw [State.reg_raise, State.reg_setReg_self]
      rfl
    · rw [State.reg_raise, State.reg_setReg_of_ne _ _ hk, State.pointStops_frame h]
      rfl

/-- Settles O32: each access that raises ends its instruction in the state it is made in; the words of a point by what is read before the fault. -/
theorem memoryConditionsAbandon : Obligations.MemoryConditionsAbandon := by
  intro s c
  refine ⟨?addressed, fun r n => ⟨fun h => abandoned_of_exec rfl (State.withWrite_error h _), exec_return_error⟩,
    fun r1 r2 => ⟨fun f hf => exec_push_error f hf r1 r2, fun f hf => exec_pop_error f hf r1 r2⟩,
    fun v i x addr m e ds he hreads hne hl hmem => ?point, fun f hf v moved f1 f2 hr h => exec_tableDraw_stops hf f1 f2 hr h⟩
  case addressed =>
    rintro _ i x addr r m rfl
    refine ⟨exec_ea_error, fun e he => ⟨fun h => ?_, fun h => ?_⟩, fun e he => ⟨fun h => ?_, fun h => ?_, fun h => ?_⟩⟩
    · exact abandoned_of_exec rfl ((State.withEA_ok he _).trans (State.withRead_error h _))
    · exact abandoned_of_exec rfl ((State.withEA_ok he _).trans (State.withWrite_error h _))
    · exact abandoned_of_exec rfl ((State.withEA_ok he _).trans (State.withRead_error h _))
    · exact exec_sd_error (ds := []) he (by cases s.dim <;> decide) ⟨h, rfl⟩
    · rw [← s.reg_afterEA i] at h
      exact abandoned_of_exec rfl ((State.withEA_ok he _).trans (State.withWrite_error h _))
  case point => exact exec_sd_error he hl (State.readStops_of_reads hreads hne rfl (by simpa using hmem))

end Sys2Proof.Machine
end

section
/-!
The repeated table draw (R499 to R501, R511): what its operations have done so far, one operation more, and the end or the fault.
-/

namespace Sys2Proof.Machine

/-! ### The current point (R495) -/

/-- Component `l` of the current point after `k` operations with the points `p`. -/
def State.currentPoint (s : State) (op : Nat → DrawOp) (p : Nat → Tuple) : Nat → Nat → Word
  | 0, l => s.reg (Reg.x + Fin.ofNat 16 l)
  | k + 1, l => if movesCurrentPoint (op k) .absolute then (p k).words.getD l (s.reg (Reg.x + Fin.ofNat 16 l)) else s.currentPoint op p k l

section

variable {s t : State} {op : Nat → DrawOp} {p : Nat → Tuple} {k l m : Nat}

theorem State.currentPoint_of_still {j : Nat} (h : ∀ i < k, j ≤ i → movesCurrentPoint (op i) .absolute = false) (hj : j ≤ k) :
    s.currentPoint op p k l = s.currentPoint op p j l := by
  induction k with
  | zero => rw [Nat.le_zero.mp hj]
  | succ k ih =>
    by_cases hk : j = k + 1
    · rw [hk]
    · have hle : j ≤ k := by omega
      rw [State.currentPoint, h k (Nat.lt_succ_self k) hle]
      exact ih (fun i hi => h i (hi.trans (Nat.lt_succ_self k))) hle

/-- A component that the points do not have stays. -/
theorem State.currentPoint_of_length (hp : ∀ j < k, (p j).words.length = m) (hl : m ≤ l) :
    s.currentPoint op p k l = s.reg (Reg.x + Fin.ofNat 16 l) := by
  induction k with
  | zero => rfl
  | succ k ih =>
    rw [State.currentPoint, ih fun j hj => hp j (hj.trans (Nat.lt_succ_self k)),
      List.getD_eq_default _ _ (by rw [hp k (Nat.lt_succ_self k)]; exact hl), ite_self]

theorem State.holdsLastPoint_of_currentPoint (h : ∀ l < 4, t.reg (Reg.x + Fin.ofNat 16 l) = s.currentPoint op p k l) :
    s.holdsLastPoint t k op p := by
  refine ⟨fun j hj hmoves hlast l hl => ?_, fun hstill l hl => ?_⟩
  · rw [h l hl, State.currentPoint_of_still (j := j + 1) (fun i hi hle => hlast i hi hle) hj, State.currentPoint, if_pos hmoves]
  · rw [h l hl, State.currentPoint_of_still (j := 0) (fun i hi _ => hstill i hi) (Nat.zero_le k), State.currentPoint]

end

/-! ### The operations of a repeated table draw -/

/-- `x` is `s` after `j` operations of TDR from the state `f1` in form AA, the points sent being `p`. -/
structure State.TableDrawn (s : State) (f1 : Fsm1) (p : Nat → Tuple) (j : Nat) (x : State) : Prop where
  frame : x = { s with regs := x.regs, queue := x.queue, rsr := x.rsr }
  queue : x.queue = s.queue ++ (List.range j).map fun i => s.command (fsm1Op (fsm1Next^[i] f1)) .absolute (some (p i))
  current : ∀ l < 4, x.reg (Reg.x + Fin.ofNat 16 l) = s.currentPoint (fun i => fsm1Op (fsm1Next^[i] f1)) p j l
  others : ∀ k, k ∉ [Reg.rc, Reg.rp, Reg.x, Reg.y, Reg.z, Reg.w] → x.reg k = s.reg k
  rc : x.reg Reg.rc = s.reg Reg.rc + BitVec.ofNat 24 j
  rp : x.reg Reg.rp = s.reg Reg.rp + BitVec.ofNat 24 (s.dim.nf.toNat * j)
  recorded : x.drawRecorded (fsm1Next^[j] f1) .aa true

section

variable {s x : State} {f1 : Fsm1} {p : Nat → Tuple} {j n m : Nat} {ds : List Word}

theorem State.TableDrawn.zero (s : State) (f1 : Fsm1) (p : Nat → Tuple) : s.TableDrawn f1 p 0 (s.beginDraw f1 .aa) where
  frame := rfl
  queue := (List.append_nil _).symm
  current _ _ := rfl
  others _ _ := rfl
  rc := (add_zero _).symm
  rp := (add_zero _).symm
  recorded := s.beginDraw_drawRecorded f1 .aa

theorem State.TableDrawn.dim (h : s.TableDrawn f1 p j x) : x.dim = s.dim := by rw [h.frame]; rfl

/-- The point of the next operation, where no other agent acts. -/
theorem State.TableDrawn.reads (h : s.TableDrawn f1 p j x) (ht : s.turns = [])
    (hds : s.wordsAt (s.reg Reg.rp + BitVec.ofNat 24 (s.dim.nf.toNat * j)) ds) :
    x.pointReads false false ds (x.setReg Reg.rp (x.reg Reg.rp + x.dim.nf)) := by
  refine ⟨x, State.reads_of_wordsAt (by rw [h.frame]; exact ht) ?_, rfl⟩
  rw [h.rp, h.frame]
  exact hds

theorem State.stepSent_reg (v : State) (op : DrawOp) (form : Form) (q : Tuple) (k : Reg) : (v.stepSent op form q).reg k =
    if movesCurrentPoint op form ∧ 8 ≤ k.val then q.words.getD (k.val - 8) (v.reg k) else v.reg k := by
  unfold State.stepSent
  cases movesCurrentPoint op form
  · simp [State.reg]
  · exact (v.setRegTuple_x_reg q k).trans (if_congr (by simp) rfl rfl)

theorem State.stepSent_frame (v : State) (op : DrawOp) (form : Form) (q : Tuple) : v.stepSent op form q =
    { v with regs := (v.stepSent op form q).regs, queue := v.queue ++ [v.command op form (some q)] } := by
  unfold State.stepSent
  cases movesCurrentPoint op form
  · rfl
  · exact congrArg (fun t : State => { t with queue := v.queue ++ [v.command op form (some q)] }) (v.setRegTuple_frame Reg.x q)

theorem State.formPoint_absolute {t : State} (h : t.dim = s.dim) (d : Fetched) : t.formPoint .absolute d = s.formPoint .absolute d := by
  cases d <;> simp only [State.formPoint, State.coordinate, h]

/-- One operation more: the state before the counter is tested again. -/
def State.tableStep (x : State) (f : Fsm1) (q : Tuple) : State :=
  let y := ((x.setReg Reg.rp (x.reg Reg.rp + x.dim.nf)).stepSent (fsm1Op f) .absolute q).setRsrFsm (fsm1Next f) .aa
  y.setReg Reg.rc (x.reg Reg.rc + 1)

theorem State.tableStep_rsr (x : State) (f : Fsm1) (q : Tuple) : (x.tableStep f q).rsr = (x.setRsrFsm (fsm1Next f) .aa).rsr :=
  (congrArg (fun t : State => (t.setRsrFsm (fsm1Next f) .aa).rsr)
    ((x.setReg Reg.rp (x.reg Reg.rp + x.dim.nf)).stepSent_frame (fsm1Op f) .absolute q) :)

theorem State.tableStep_frame (x : State) (f : Fsm1) (q : Tuple) : x.tableStep f q =
    { x with regs := (x.tableStep f q).regs, queue := (x.tableStep f q).queue, rsr := (x.tableStep f q).rsr } := by
  rw [State.tableStep, State.stepSent_frame]
  rfl

theorem State.tableStep_reg (x : State) (f : Fsm1) (q : Tuple) (k : Reg) : (x.tableStep f q).reg k =
    if k = Reg.rc then x.reg Reg.rc + 1 else if movesCurrentPoint (fsm1Op f) .absolute ∧ 8 ≤ k.val then q.words.getD (k.val - 8)
      (if k = Reg.rp then x.reg Reg.rp + x.dim.nf else x.reg k) else if k = Reg.rp then x.reg Reg.rp + x.dim.nf else x.reg k := by
  rw [State.tableStep, State.reg_setReg, State.reg_setRsrFsm, State.stepSent_reg, State.reg_setReg]

/-- A register beyond the current point in `tableStep`. -/
theorem State.tableStep_reg_of_far (x : State) (f : Fsm1) {q : Tuple} {k : Reg} (hk : k.val < 8 ∨ 12 ≤ k.val) (hrc : k ≠ Reg.rc) :
    (x.tableStep f q).reg k = if k = Reg.rp then x.reg Reg.rp + x.dim.nf else x.reg k := by
  have hl : q.words.length ≤ 4 := by rw [length_words]; split <;> decide
  rw [State.tableStep_reg, if_neg hrc]
  split
  next h => exact List.getD_eq_default _ _ (by omega)
  next => rfl

theorem currentRegister {l : Nat} (hl : l < 4) : (Reg.x + Fin.ofNat 16 l).val = 8 + l ∧ Reg.x + Fin.ofNat 16 l ≠ Reg.rc ∧
    Reg.x + Fin.ofNat 16 l ≠ Reg.rp := by
  have h : ∀ l : Fin 4, (Reg.x + Fin.ofNat 16 l.val).val = 8 + l.val ∧ Reg.x + Fin.ofNat 16 l.val ≠ Reg.rc ∧
      Reg.x + Fin.ofNat 16 l.val ≠ Reg.rp := by decide
  exact h ⟨l, hl⟩

theorem State.TableDrawn.succ (h : s.TableDrawn f1 p j x) (hlen : ∀ i ≤ j, (p i).words.length = m) :
    s.TableDrawn f1 p (j + 1) (x.tableStep (fsm1Next^[j] f1) (p j)) where
  frame := (x.tableStep_frame _ _).trans (congrArg (fun y : State => { y with
    regs := (x.tableStep (fsm1Next^[j] f1) (p j)).regs
    queue := (x.tableStep (fsm1Next^[j] f1) (p j)).queue
    rsr := (x.tableStep (fsm1Next^[j] f1) (p j)).rsr }) h.frame)
  queue := by
    have hdir : x.dir = s.dir := by rw [h.frame]
    have hcommand : (x.setReg Reg.rp (x.reg Reg.rp + x.dim.nf)).command (fsm1Op (fsm1Next^[j] f1)) .absolute (some (p j)) =
        s.command (fsm1Op (fsm1Next^[j] f1)) .absolute (some (p j)) := by
      simp only [State.command, State.dim, State.setReg, hdir]
    rw [List.range_succ, List.map_append, ← List.append_assoc, ← h.queue, List.map_singleton, ← hcommand]
    rfl
  current l hl := by
    obtain ⟨hval, hrc, hrp⟩ := currentRegister hl
    rw [State.tableStep_reg, if_neg hrc, if_neg hrp, hval, h.current l hl, State.currentPoint, Nat.add_sub_cancel_left]
    cases hmoves : movesCurrentPoint (fsm1Op (fsm1Next^[j] f1)) .absolute with
    | false => rw [if_neg (by simp), if_neg (by simp)]
    | true =>
      rw [if_pos ⟨rfl, by omega⟩, if_pos rfl]
      by_cases hfar : m ≤ l
      · rw [State.currentPoint_of_length (fun i hi => hlen i hi.le) hfar]
      · rw [List.getD_eq_getElem _ _ (by rw [hlen j le_rfl]; omega), List.getD_eq_getElem _ _ (by rw [hlen j le_rfl]; omega)]
  others k hk := by
    have hfar : k.val < 8 ∨ 12 ≤ k.val := by
      revert hk
      revert k
      decide
    have hrc : k ≠ Reg.rc := fun hc => hk (by rw [hc]; decide)
    have hrp : k ≠ Reg.rp := fun hc => hk (by rw [hc]; decide)
    rw [State.tableStep_reg_of_far _ _ hfar hrc, if_neg hrp, h.others k hk]
  rc := by
    rw [State.tableStep_reg, if_pos rfl, h.rc, BitVec.add_assoc]
    exact congrArg (s.reg Reg.rc + ·) (BitVec.ofNat_add ..).symm
  rp := by
    have hnf : s.dim.nf = BitVec.ofNat 24 s.dim.nf.toNat := by cases s.dim <;> rfl
    rw [State.tableStep_reg_of_far _ _ (.inr (by decide)) (by decide), if_pos rfl, h.rp, h.dim, BitVec.add_assoc, Nat.mul_succ,
      BitVec.ofNat_add, ← hnf]
  recorded := by
    rw [Function.iterate_succ_apply']
    exact State.drawRecorded_congr (x.tableStep_rsr _ _) (h.recorded.setRsrFsm (f1 := fsm1Next (fsm1Next^[j] f1)) (f2 := .aa))

/-! ### The loop -/

theorem Fetched.words_injective {a b : Fetched} (h : a.words = b.words) : a = b := by
  cases a <;> cases b <;> simp_all [Fetched.words]

theorem State.fetched_of_length (hl : ds.length = s.dim.nf.toNat) : ∃ d : Fetched, d.words = ds ∧
    (s.formPoint .absolute d).words.length = if s.twoD then 2 else 4 := by
  cases hd : s.dim <;> rw [hd] at hl
  case twoD =>
    obtain ⟨d0, d1, rfl⟩ := List.length_eq_two.mp hl
    exact ⟨.two d0 d1, rfl, by rw [State.twoD, hd]; rfl⟩
  case homog =>
    obtain ⟨d0, d1, d2, d3, rfl⟩ := eq_of_length_four hl
    exact ⟨.four d0 d1 d2 d3, rfl, by rw [State.twoD, hd]; rfl⟩
  case mm3d | cd3d =>
    obtain ⟨d0, d1, d2, rfl⟩ := List.length_eq_three.mp hl
    exact ⟨.three d0 d1 d2, rfl, by rw [State.twoD, hd]; rfl⟩

/-- An operation of the loop, up to the test of the counter. -/
theorem State.tableDraw_step (h : s.TableDrawn f1 p j x) (ht : s.turns = []) (hnov : bitAt s.dir 4 = false)
    {d : Fetched} (hl : d.words.length = s.dim.nf.toNat) (hds : s.wordsAt (s.reg Reg.rp + BitVec.ofNat 24 (s.dim.nf.toNat * j)) d.words)
    (hbit : bitAt (x.reg Reg.rc) 0 = true) :
    State.tableDraw false false (n + 1) (fsm1Next^[j] f1) .aa x =
      if x.reg Reg.rc + 1 = 0 then (x.tableStep (fsm1Next^[j] f1) (s.formPoint .absolute d)).endRepeat
      else State.tableDraw false false n (fsm1Next^[j + 1] f1) .aa (x.tableStep (fsm1Next^[j] f1) (s.formPoint .absolute d)) := by
  obtain ⟨d', hd', hpoint⟩ := State.tablePoint_ok (h.dim ▸ hl) (h.reads ht hds)
  obtain rfl := Fetched.words_injective hd'
  have hdir : x.dir = s.dir := by rw [h.frame]
  have hpt : (x.setReg Reg.rp (x.reg Reg.rp + x.dim.nf)).formPoint .absolute d' = s.formPoint .absolute d' :=
    State.formPoint_absolute h.dim d'
  have hstep : (x.setReg Reg.rp (x.reg Reg.rp + x.dim.nf)).drawStep (fsm1Op (fsm1Next^[j] f1)) .absolute d' =
      (x.setReg Reg.rp (x.reg Reg.rp + x.dim.nf)).stepSent (fsm1Op (fsm1Next^[j] f1)) .absolute (s.formPoint .absolute d') := by
    rw [State.drawStep_eq, hpt, if_neg]
    exact fun hc => absurd (hnov.symm.trans ((congrArg (bitAt · 4) hdir).symm.trans hc)) (by decide)
  have hrc : ((x.setReg Reg.rp (x.reg Reg.rp + x.dim.nf)).stepSent (fsm1Op (fsm1Next^[j] f1)) .absolute (s.formPoint .absolute d')).reg
      Reg.rc = x.reg Reg.rc := by
    have hw : (s.formPoint .absolute d').words.length ≤ 4 := by rw [length_words]; split <;> decide
    rw [State.stepSent_reg, State.reg_setReg_of_ne _ _ (by decide), List.getD_eq_default _ _ (hw.trans (by decide)), ite_self]
  have hturns : (x.tableStep (fsm1Next^[j] f1) (s.formPoint .absolute d')).turns = [] := by
    rw [State.tableStep_frame, h.frame]
    exact ht
  rw [State.tableDraw, hpoint]
  dsimp only
  rw [show fsm2Form .aa = .absolute from rfl, show fsm2Next .aa = .aa from rfl, hstep, State.reg_setRsrFsm, hrc, if_pos hbit, Function.iterate_succ_apply']
  exact if_congr Iff.rfl rfl (congrArg (State.tableDraw false false n (fsm1Next (fsm1Next^[j] f1)) .aa) (State.turn_nil hturns))

/-- The operations before one that may fail. -/
theorem State.tableDraw_iterate {k : Nat} {d : Nat → Fetched} (hc : s.counted n) (ht : s.turns = []) (hnov : bitAt s.dir 4 = false)
    (hp : ∀ j, p j = s.formPoint .absolute (d j)) (hlen : ∀ j < k, (p j).words.length = m) (hl : ∀ j < k, (d j).words.length = s.dim.nf.toNat)
    (hds : ∀ j < k, s.wordsAt (s.reg Reg.rp + BitVec.ofNat 24 (s.dim.nf.toNat * j)) (d j).words) (hk : k < n) :
    ∃ z, s.TableDrawn f1 p k z ∧ State.tableDraw false false n f1 .aa (s.beginDraw f1 .aa) =
      State.tableDraw false false (n - k) (fsm1Next^[k] f1) .aa z := by
  induction k with
  | zero => exact ⟨_, State.TableDrawn.zero s f1 p, rfl⟩
  | succ k ih =>
    obtain ⟨z, hz, hloop⟩ := ih (fun j hj => hlen j (hj.trans (Nat.lt_succ_self k))) (fun j hj => hl j (hj.trans (Nat.lt_succ_self k)))
      (fun j hj => hds j (hj.trans (Nat.lt_succ_self k))) (Nat.lt_of_succ_lt hk)
    obtain ⟨hbit, hlast⟩ := counter_negative hc.2.2 hc.2.1 (Nat.lt_of_succ_lt hk)
    refine ⟨_, hz.succ fun i hi => hlen i (Nat.lt_succ_of_le hi), ?_⟩
    rw [hloop, show n - k = n - (k + 1) + 1 by omega,
      State.tableDraw_step hz ht hnov (hl k (Nat.lt_succ_self k)) (hds k (Nat.lt_succ_self k)) (by rw [hz.rc]; exact hbit),
      if_neg (by rw [hz.rc, hlast]; omega), hp]

/-- All operations. -/
theorem State.tableDraw_finish {d : Nat → Fetched} (hc : s.counted n) (ht : s.turns = []) (hnov : bitAt s.dir 4 = false)
    (hp : ∀ j, p j = s.formPoint .absolute (d j)) (hlen : ∀ j < n, (p j).words.length = m) (hl : ∀ j < n, (d j).words.length = s.dim.nf.toNat)
    (hds : ∀ j < n, s.wordsAt (s.reg Reg.rp + BitVec.ofNat 24 (s.dim.nf.toNat * j)) (d j).words) :
    ∃ z, s.TableDrawn f1 p n z ∧ z.reg Reg.rc = 0 ∧ State.tableDraw false false n f1 .aa (s.beginDraw f1 .aa) = z.endRepeat := by
  obtain ⟨k, rfl⟩ : ∃ k, n = k + 1 := Nat.exists_eq_succ_of_ne_zero (State.asksFor.pos (.inl hc)).ne'
  obtain ⟨z, hz, hloop⟩ := State.tableDraw_iterate (f1 := f1) hc ht hnov hp (fun j hj => hlen j (hj.trans (Nat.lt_succ_self k)))
    (fun j hj => hl j (hj.trans (Nat.lt_succ_self k))) (fun j hj => hds j (hj.trans (Nat.lt_succ_self k))) (Nat.lt_succ_self k)
  obtain ⟨hbit, hlast⟩ := counter_negative hc.2.2 hc.2.1 (Nat.lt_succ_self k)
  have hzero : z.reg Reg.rc + 1 = 0 := by rw [hz.rc, hlast]
  have hsucc := hz.succ fun i hi => hlen i (Nat.lt_succ_of_le hi)
  refine ⟨_, hsucc, ?_, ?_⟩
  · rw [State.tableStep_reg, if_pos rfl, hzero]
  · rw [hloop, show k + 1 - k = 0 + 1 by omega,
      State.tableDraw_step hz ht hnov (hl k (Nat.lt_succ_self k)) (hds k (Nat.lt_succ_self k)) (by rw [hz.rc]; exact hbit), if_pos hzero, hp]

/-- The point of operation `k` stops at a word that cannot be read. -/
theorem State.TableDrawn.stops {k : Nat} {c : Cond} (h : s.TableDrawn f1 p k x) (ht : s.turns = []) (hl : ds.length < s.dim.nf.toNat)
    (hds : s.wordsAt (s.reg Reg.rp + BitVec.ofNat 24 (s.dim.nf.toNat * k)) ds)
    (he : s.memRead (s.reg Reg.rp + BitVec.ofNat 24 (s.dim.nf.toNat * k + ds.length)) = .error c) :
    x.pointStops false false c x (BitVec.ofNat 24 ds.length) := by
  have hxt : x.turns = [] := by rw [h.frame]; exact ht
  have hview : x.SameView s := by rw [h.frame]; exact ⟨rfl, rfl, rfl, rfl, rfl, rfl, rfl⟩
  have hmem : x.memRead (x.reg Reg.rp + BitVec.ofNat 24 ds.length) = .error c := by
    rw [hview.memRead, h.rp, BitVec.add_assoc, ← BitVec.ofNat_add]
    exact he
  by_cases hne : ds = []
  · subst hne
    exact .inl ⟨by simpa using hmem, rfl, rfl⟩
  · have hreads : x.reads (x.reg Reg.rp) 1 ds x := by
      refine State.reads_of_wordsAt hxt ?_
      rw [h.rp, h.frame]
      exact hds
    exact .inr ⟨x, _, ds, ⟨rfl, rfl, rfl, hne⟩, h.dim ▸ hl, .inr ⟨x, hne, hreads, (State.gap_nil hxt).symm⟩, hmem⟩

end

theorem exec_tdr {s : State} {f1 : Fsm1} {n : Nat} (h : s.counted n) :
    exec (.tdr f1 .aa) s = .next (State.tableDraw false false n f1 .aa (s.beginDraw f1 .aa)) := by
  have hexec : exec (.tdr f1 .aa) s = .next (s.startDraw (.table false false true) f1 .aa) := rfl
  rw [hexec, State.startDraw_begin h.1, State.runDraw, iterations_of_counted h]

/-- Settles O51: the operations before the fault, or all of them, by the loop; the fault by the words of its point. -/
theorem tableDrawRepeatsItsCount : Obligations.TableDrawRepeatsItsCount := by
  intro s f1 n k d hc ht hnov hk hpoints done hdone
  have hfetched : ∀ j, ∃ F : Fetched, j < k → F.words = d j ∧ (s.formPoint .absolute F).words.length = if s.twoD then 2 else 4 := by
    intro j
    by_cases hj : j < k
    · obtain ⟨F, hF⟩ := State.fetched_of_length (hpoints j hj).1
      exact ⟨F, fun _ => hF⟩
    · exact ⟨.two 0 0, fun h => absurd h hj⟩
  choose F hF using hfetched
  have hlen (j) (hj : j < k) : (s.formPoint .absolute (F j)).words.length = if s.twoD then 2 else 4 := (hF j hj).2
  have hl (j) (hj : j < k) : (F j).words.length = s.dim.nf.toNat := by rw [(hF j hj).1]; exact (hpoints j hj).1
  have hds (j) (hj : j < k) : s.wordsAt (s.reg Reg.rp + BitVec.ofNat 24 (s.dim.nf.toNat * j)) (F j).words := by
    rw [(hF j hj).1]
    exact (hpoints j hj).2
  have hdrawn {t z : State} (hz : s.TableDrawn f1 (fun j => s.formPoint .absolute (F j)) k z) (hq : t.queue = z.queue)
      (hm : t.mem = z.mem) (hr : ∀ q, q ≠ Reg.rp → t.reg q = z.reg q) : done t (fun j => s.formPoint .absolute (F j)) := by
    refine (hdone t _).mpr ⟨fun j hj => ?_, hq.trans hz.queue, State.holdsLastPoint_of_currentPoint fun l hl => ?_, fun q hq => ?_, fun a => ?_⟩
    · rw [State.formPoint_words, (hF j hj).1]
    · rw [hr _ (currentRegister hl).2.2]
      exact hz.current l hl
    · rw [hr q fun h => hq (by rw [h]; decide), hz.others q hq]
    · rw [hm, hz.frame]
  refine ⟨fun hkn => ?all, fun ds c hkn hlt hat he => ?fault⟩
  case all =>
    subst hkn
    obtain ⟨z, hz, hrc, hloop⟩ := State.tableDraw_finish (f1 := f1) hc ht hnov (fun _ => rfl) hlen hl hds
    refine ⟨_, fun j => s.formPoint .absolute (F j), (exec_tdr hc).trans (congrArg _ hloop), hdrawn hz rfl rfl fun _ _ => rfl, hrc, hz.rp,
      hz.recorded.endRepeat, ?_⟩
    exact congrArg (fun y : State => { y with regs := z.regs, queue := z.queue, rsr := z.endRepeat.rsr }) hz.frame
  case fault =>
    obtain ⟨z, hz, hloop⟩ := State.tableDraw_iterate (f1 := f1) hc ht hnov (fun _ => rfl) hlen hl hds hkn
    have hstop := State.tableDraw_stops (f1 := fsm1Next^[k] f1) (f2 := .aa) (n := n - k - 1) (hz.stops ht hlt hat he)
    rw [show n - k = n - k - 1 + 1 by omega, hstop] at hloop
    refine ⟨_, fun j => s.formPoint .absolute (F j), (exec_tdr hc).trans (congrArg _ hloop), hdrawn hz rfl rfl fun q hq => ?_, ?_, ?_,
      State.drawRecorded_congr rfl hz.recorded, ?_⟩
    · rw [State.reg_raise, State.reg_setReg_of_ne _ _ hq]
    · rw [State.reg_raise, State.reg_setReg_of_ne _ _ (by decide), hz.rc]
    · rw [State.reg_raise, State.reg_setReg_self, hz.rp, BitVec.add_assoc, ← BitVec.ofNat_add]
    · refine State.abandoned_of_eq ?_ (State.abandoned_raise _ c)
      exact congrArg (fun y : State => { y with regs := (z.setReg Reg.rp (z.reg Reg.rp + BitVec.ofNat 24 ds.length)).regs
                                                queue := z.queue, rsr := z.rsr }) hz.frame

end Sys2Proof.Machine
end

section
/-!
The draws from registers and of the Matrix Multiplier (R508 to R510).
-/

namespace Sys2Proof.Machine

/-! ### RD (R508) -/

section

variable {s u : State} {f1 : Fsm1} {f2 : Fsm2} {x : XSel} {c : Reg} {d : Tuple} {w : Word}

theorem Tuple.fetched_words (d : Tuple) : d.fetched.words = d.words := by cases d <;> rfl

theorem State.wordsIn_regTuple (u : State) (c : Reg) : u.wordsIn c (u.regTuple u.twoD c) := by
  unfold State.wordsIn State.regTuple
  cases u.twoD
  case true =>
    refine ⟨rfl, fun k hk => ?_⟩
    have hk2 : k < 2 := hk
    interval_cases k
    · exact congrArg u.reg (add_zero c).symm
    · rfl
  case false =>
    refine ⟨rfl, fun k hk => ?_⟩
    have hk4 : k < 4 := hk
    interval_cases k
    · exact congrArg u.reg (add_zero c).symm
    all_goals rfl

theorem State.drawStep_turns (h : s.turns = []) (op : DrawOp) (form : Form) (d : Fetched) : (s.drawStep op form d).turns = [] := by
  have hsent : (s.stepSent op form (s.formPoint form d)).turns = [] := by rw [State.stepSent_frame]; exact h
  rw [State.drawStep_eq]
  split
  · exact elementary_noTurns.settle (elementary_noTurns.gap hsent)
  · exact hsent

theorem State.drawStep_dim (op : DrawOp) (form : Form) (d : Fetched) : (s.drawStep op form d).dim = s.dim := by
  have hsent : (s.stepSent op form (s.formPoint form d)).dim = s.dim := by rw [State.stepSent_frame]; rfl
  rw [State.drawStep_eq]
  split
  · rw [State.settle_dim, State.dim_gap, hsent]
  · exact hsent

/-- RD of one point. -/
theorem State.registerDraw_single (h : xDouble x = false) (hd : s.wordsIn (xFirst x) d) :
    State.registerDraw { s with rsr := w } x f1 f2 = s.drawOnce w (fsm1Op f1) (fsm2Form f2) d.fetched (fsm1Next f1) (fsm2Next f2) := by
  rw [← State.regTuple_of_wordsIn hd]
  unfold State.registerDraw
  dsimp only
  rw [if_neg (by rw [h]; decide)]
  rfl

/-- RD of two points, the second of the registers that the first operation leaves. -/
theorem State.registerDraw_double (h : xDouble x = true) (ht : s.turns = []) (hd : s.wordsIn (xFirst x) d) (hw : fieldAt w 2 4 = 4)
    (hu : u = s.drawStep (fsm1Op f1) (fsm2Form f2) d.fetched) : ∃ w', fieldAt w' 2 4 = 4 ∧
    State.registerDraw { s with rsr := w } x f1 f2 = u.drawOnce w' (fsm1Op (fsm1Next f1)) (fsm2Form (fsm2Next f2))
      (u.regTuple u.twoD (secondGroup u.twoD (xFirst x))).fetched (fsm1Next (fsm1Next f1)) (fsm2Next (fsm2Next f2)) := by
  have hfirst : State.drawStep { s with rsr := w } (fsm1Op f1) (fsm2Form f2) (s.regTuple s.twoD (xFirst x)).fetched = { u with rsr := w } := by
    rw [State.regTuple_of_wordsIn hd, State.drawStep_withRsr, hu]
  have hturn : State.turn { u with rsr := (State.setRsrFsm { u with rsr := w } (fsm1Next f1) (fsm2Next f2)).rsr } =
      { u with rsr := (State.setRsrFsm { u with rsr := w } (fsm1Next f1) (fsm2Next f2)).rsr } :=
    State.turn_nil (by rw [hu]; exact State.drawStep_turns ht _ _ _)
  refine ⟨_, (State.setRsrFsm_drawRecorded (s := { u with rsr := w }) (f1 := fsm1Next f1) (f2 := fsm2Next f2) hw).1, ?_⟩
  unfold State.registerDraw
  dsimp only
  rw [if_pos h]
  have hsecond : (State.setRsrFsm (State.drawStep { s with rsr := w } (fsm1Op f1) (fsm2Form f2)
      (s.regTuple s.twoD (xFirst x)).fetched) (fsm1Next f1) (fsm2Next f2)).turn =
      { u with rsr := (State.setRsrFsm { u with rsr := w } (fsm1Next f1) (fsm2Next f2)).rsr } := by
    rw [hfirst]
    exact hturn
  exact congrArg (fun y : State => State.endRepeat ((y.drawStep (fsm1Op (fsm1Next f1)) (fsm2Form (fsm2Next f2))
    (y.regTuple y.twoD (secondGroup y.twoD (xFirst x))).fetched).setRsrFsm (fsm1Next (fsm1Next f1)) (fsm2Next (fsm2Next f2)))) hsecond

end

/-! ### MMD and MMDR (R509, R510) -/

section

variable {s x : State} {f1 : Fsm1} {f2 : Fsm2} {rep : Bool} {n j : Nat} {w : Word}

/-- A dataless command at the end of the queue. -/
def State.datalessSent (s : State) (op : DrawOp) : State := { s with queue := s.queue ++ [s.command op .absolute none] }

theorem State.sendDraw_eq (s : State) (op : DrawOp) : s.sendDraw op .absolute none =
    if bitAt s.dir 4 then (s.datalessSent op).gap.settle else s.datalessSent op := rfl

theorem State.sendDraw_withRsr (s : State) (op : DrawOp) (w : Word) :
    State.sendDraw { s with rsr := w } op .absolute none = { s.sendDraw op .absolute none with rsr := w } := by
  rw [State.sendDraw_eq, State.sendDraw_eq]
  cases bitAt s.dir 4 with
  | false => rfl
  | true =>
    rw [if_pos rfl, if_pos rfl, ← State.settle_withRsr, ← State.gap_withRsr]
    rfl

theorem State.sendDraw_rc (s : State) (op : DrawOp) : (s.sendDraw op .absolute none).reg Reg.rc = s.reg Reg.rc := by
  rw [State.sendDraw_eq]
  split
  · rw [State.settle_reg _ (by decide) (by decide), State.reg_gap]
    rfl
  · rfl

/-- The loop of MMD and MMDR that makes one operation. -/
theorem State.matrixDraw_one (h : (rep && bitAt (s.reg Reg.rc) 0) = false) :
    State.matrixDraw rep (n + 1) f1 f2 { s with rsr := w } =
      (State.setRsrFsm { s.sendDraw (fsm1Op f1) .absolute none with rsr := w } (fsm1Next f1) (fsm2Next f2)).endRepeat := by
  rw [State.matrixDraw, State.sendDraw_withRsr]
  dsimp only
  rw [State.reg_setRsrFsm, if_neg]
  have hrc : State.reg { s.sendDraw (fsm1Op f1) .absolute none with rsr := w } Reg.rc = s.reg Reg.rc := s.sendDraw_rc _
  rw [hrc, h]
  decide

/-- `x` is `s` after `j` operations of MMDR from the state `f1`. -/
structure State.MatrixDrawn (s : State) (f1 : Fsm1) (j : Nat) (x : State) : Prop where
  frame : x = { s with regs := x.regs, queue := x.queue, rsr := x.rsr }
  queue : x.queue = s.queue ++ (List.range j).map fun k => s.command (fsm1Op (fsm1Next^[k] f1)) .absolute none
  rc : x.reg Reg.rc = s.reg Reg.rc + BitVec.ofNat 24 j
  others : ∀ k, k ≠ Reg.rc → x.reg k = s.reg k
  recorded : x.drawRecorded (fsm1Next^[j] f1) .aa true

/-- One operation more. -/
def State.matrixStep (x : State) (f : Fsm1) : State :=
  ((x.datalessSent (fsm1Op f)).setRsrFsm (fsm1Next f) .aa).setReg Reg.rc (x.reg Reg.rc + 1)

theorem State.MatrixDrawn.zero (s : State) (f1 : Fsm1) : s.MatrixDrawn f1 0 (s.beginDraw f1 .aa) where
  frame := rfl
  queue := (List.append_nil _).symm
  rc := (add_zero _).symm
  others _ _ := rfl
  recorded := s.beginDraw_drawRecorded f1 .aa

theorem State.MatrixDrawn.succ (h : s.MatrixDrawn f1 j x) : s.MatrixDrawn f1 (j + 1) (x.matrixStep (fsm1Next^[j] f1)) where
  frame := congrArg (fun y : State => { y with
    regs := (x.matrixStep (fsm1Next^[j] f1)).regs
    queue := (x.matrixStep (fsm1Next^[j] f1)).queue
    rsr := (x.matrixStep (fsm1Next^[j] f1)).rsr }) h.frame
  queue := by
    have hdir : x.dir = s.dir := by rw [h.frame]
    have hcommand : x.command (fsm1Op (fsm1Next^[j] f1)) .absolute none = s.command (fsm1Op (fsm1Next^[j] f1)) .absolute none := by
      simp only [State.command, State.dim, hdir]
    rw [List.range_succ, List.map_append, ← List.append_assoc, ← h.queue, List.map_singleton, ← hcommand]
    rfl
  rc := by
    rw [State.matrixStep, State.reg_setReg_self, h.rc, BitVec.add_assoc]
    exact congrArg (s.reg Reg.rc + ·) (BitVec.ofNat_add ..).symm
  others k hk := by
    rw [State.matrixStep, State.reg_setReg_of_ne _ _ hk]
    exact h.others k hk
  recorded := by
    rw [Function.iterate_succ_apply']
    exact State.drawRecorded_congr rfl (h.recorded.setRsrFsm (f1 := fsm1Next (fsm1Next^[j] f1)) (f2 := .aa))

/-- An operation of the loop, up to the test of the counter. -/
theorem State.matrixDraw_step (h : s.MatrixDrawn f1 j x) (ht : s.turns = []) (hnov : bitAt s.dir 4 = false)
    (hbit : bitAt (x.reg Reg.rc) 0 = true) : State.matrixDraw true (n + 1) (fsm1Next^[j] f1) .aa x =
      if x.reg Reg.rc + 1 = 0 then (x.matrixStep (fsm1Next^[j] f1)).endRepeat
      else State.matrixDraw true n (fsm1Next^[j + 1] f1) .aa (x.matrixStep (fsm1Next^[j] f1)) := by
  have hdir : x.dir = s.dir := by rw [h.frame]
  have hsend : x.sendDraw (fsm1Op (fsm1Next^[j] f1)) .absolute none = x.datalessSent (fsm1Op (fsm1Next^[j] f1)) := by
    rw [State.sendDraw_eq, hdir, hnov]
    rfl
  have hturns : (x.matrixStep (fsm1Next^[j] f1)).turns = [] := by
    have hx : x.turns = [] := by rw [h.frame]; exact ht
    exact hx
  rw [State.matrixDraw, hsend]
  dsimp only
  rw [State.reg_setRsrFsm, show (x.datalessSent (fsm1Op (fsm1Next^[j] f1))).reg Reg.rc = x.reg Reg.rc from rfl, hbit, Bool.and_self, if_pos rfl,
    Function.iterate_succ_apply']
  exact if_congr Iff.rfl rfl (congrArg (State.matrixDraw true n (fsm1Next (fsm1Next^[j] f1)) .aa) (State.turn_nil hturns))

/-- The operations before the last. -/
theorem State.matrixDraw_iterate {k : Nat} (hc : s.counted n) (ht : s.turns = []) (hnov : bitAt s.dir 4 = false) (hk : k < n) :
    ∃ z, s.MatrixDrawn f1 k z ∧ State.matrixDraw true n f1 .aa (s.beginDraw f1 .aa) =
      State.matrixDraw true (n - k) (fsm1Next^[k] f1) .aa z := by
  induction k with
  | zero => exact ⟨_, State.MatrixDrawn.zero s f1, rfl⟩
  | succ k ih =>
    obtain ⟨z, hz, hloop⟩ := ih (Nat.lt_of_succ_lt hk)
    obtain ⟨hbit, hlast⟩ := counter_negative hc.2.2 hc.2.1 (Nat.lt_of_succ_lt hk)
    refine ⟨_, hz.succ, ?_⟩
    rw [hloop, show n - k = n - (k + 1) + 1 by omega, State.matrixDraw_step hz ht hnov (by rw [hz.rc]; exact hbit),
      if_neg (by rw [hz.rc, hlast]; omega)]

theorem State.matrixDraw_finish (hc : s.counted n) (ht : s.turns = []) (hnov : bitAt s.dir 4 = false) :
    ∃ z, s.MatrixDrawn f1 n z ∧ z.reg Reg.rc = 0 ∧ State.matrixDraw true n f1 .aa (s.beginDraw f1 .aa) = z.endRepeat := by
  obtain ⟨k, rfl⟩ : ∃ k, n = k + 1 := Nat.exists_eq_succ_of_ne_zero (State.asksFor.pos (.inl hc)).ne'
  obtain ⟨z, hz, hloop⟩ := State.matrixDraw_iterate (f1 := f1) hc ht hnov (Nat.lt_succ_self k)
  obtain ⟨hbit, hlast⟩ := counter_negative hc.2.2 hc.2.1 (Nat.lt_succ_self k)
  have hzero : z.reg Reg.rc + 1 = 0 := by rw [hz.rc, hlast]
  refine ⟨_, hz.succ, ?_, ?_⟩
  · rw [State.matrixStep, State.reg_setReg_self, hzero]
  · rw [hloop, show k + 1 - k = 0 + 1 by omega, State.matrixDraw_step hz ht hnov (by rw [hz.rc]; exact hbit), if_pos hzero]

end

/-- MMD, and MMDR where the counter asks for one operation. -/
theorem exec_matrixDraw {s : State} {f1 : Fsm1} {i : Instr} (hi : i = .mmd f1 ∨ (i = .mmdr f1 ∧ bitAt (s.reg Reg.rc) 0 = false)) :
    ∃ rep, exec i s = .next (s.startDraw (.matrix rep) f1 .aa) ∧ (rep && bitAt (s.reg Reg.rc) 0) = false := by
  rcases hi with rfl | ⟨rfl, hrc⟩
  · exact ⟨false, rfl, rfl⟩
  · exact ⟨true, rfl, hrc⟩

/-- Settles O52: RD by one drawing step or two, MMD and MMDR by their loop. -/
theorem registerAndMatrixDraws : Obligations.RegisterAndMatrixDraws := by
  intro s f1 f2 hr ht
  refine ⟨fun x c double nw d hx hnw hd => ?rd, fun i hi => ?one, fun n hc hnov => ?counted⟩
  case rd =>
    obtain ⟨rfl, rfl⟩ := xField_of_mem hx
    have hexec : exec (.rd f1 f2 x) s = .next (State.registerDraw { s with rsr := (s.beginDraw f1 f2).rsr } x f1 f2) :=
      congrArg Host.Outcome.next (State.startDraw_begin hr (.register x))
    have hw := (s.beginDraw_drawRecorded f1 f2).1
    refine ⟨_, s.drawStep (fsm1Op f1) (fsm2Form f2) d.fetched, s.formPoint (fsm2Form f2) d.fetched, hexec, ?_, s.drawStep_drawn _ _ _,
      fun hsingle => ?_, fun hdouble => ?_⟩
    · rw [State.formPoint_words, Tuple.fetched_words]
    · rw [State.registerDraw_single hsingle hd]
      exact State.drawOnce_recorded hw _ _
    · obtain ⟨w, hw', hdraw⟩ := State.registerDraw_double hdouble ht hd hw rfl
      have hgroup : secondGroup (s.drawStep (fsm1Op f1) (fsm2Form f2) d.fetched).twoD (xFirst x) = xFirst x + Fin.ofNat 16 nw := by
        rw [State.twoD, State.drawStep_dim, secondGroup_eq, hnw]
        rfl
      rw [hdraw, hgroup]
      refine ⟨State.drawStep _ _ _ _, State.formPoint _ _ _, _, State.wordsIn_regTuple _ _, ?_, State.drawStep_drawn _ _ _ _,
        State.drawOnce_recorded hw' _ _⟩
      rw [State.formPoint_words, Tuple.fetched_words]
  case one =>
    obtain ⟨rep, hexec, hrep⟩ := exec_matrixDraw (s := s) hi
    obtain ⟨n, hn⟩ := iterations_pos (s.reg Reg.rc)
    have hone := State.matrixDraw_one (n := n) (f1 := f1) (f2 := .aa) (w := (s.beginDraw f1 .aa).rsr) hrep
    have hgap : (s.datalessSent (fsm1Op f1)).gap = s.datalessSent (fsm1Op f1) := State.gap_nil ht
    have hsend := s.sendDraw_eq (fsm1Op f1)
    rw [hgap] at hsend
    rw [State.startDraw_begin hr, State.runDraw, hn] at hexec
    refine ⟨_, _, hexec.trans (congrArg _ hone), rfl, ?_, ?_⟩
    · exact (State.setRsrFsm_drawRecorded (s := { s.sendDraw (fsm1Op f1) .absolute none with rsr := (s.beginDraw f1 .aa).rsr })
        (s.beginDraw_drawRecorded f1 .aa).1).endRepeat
    · rw [hsend]
      rfl
  case counted =>
    obtain ⟨z, hz, hrc, hloop⟩ := State.matrixDraw_finish (f1 := f1) hc ht hnov
    have hexec : exec (.mmdr f1) s = .next (State.matrixDraw true n f1 .aa (s.beginDraw f1 .aa)) := by
      rw [show exec (.mmdr f1) s = .next (s.startDraw (.matrix true) f1 .aa) from rfl, State.startDraw_begin hr, State.runDraw,
        iterations_of_counted hc]
    refine ⟨_, hexec.trans (congrArg _ hloop), hz.queue, hrc, ⟨fun k hk => hz.others k fun h => hk (by rw [h]; decide), fun a => ?_⟩,
      hz.recorded.endRepeat, ?_⟩
    · rw [show z.endRepeat.mem = z.mem from rfl, hz.frame]
    · exact congrArg (fun y : State => { y with regs := z.regs, queue := z.queue, rsr := z.endRepeat.rsr }) hz.frame

end Sys2Proof.Machine
end

section
/-!
Resuming what REPEAT STATUS records (R438, R479, R505; log 32). What an instruction does but to REPEAT STATUS does not depend on REPEAT STATUS,
and beginning a sequence afresh records what an unfinished one has recorded.
-/

namespace Sys2Proof.Machine

/-! ### REPEAT STATUS as it was (R53) -/

section

variable {v w : Word} {i j n : Nat} {b : Bool}

theorem word_ext (h : ∀ k < 24, bitAt v k = bitAt w k) : v = w := BitVec.eq_of_getMsbD_eq h

theorem setBitAt_eq_self (h : bitAt w i = b) : setBitAt w i b = w :=
  word_ext fun k _ => by
    rw [bitAt_setBitAt]
    split
    next hk => rw [hk.1, h]
    next => rfl

theorem setFieldAt_eq_self (hj : j < 24) (h : fieldAt w i j = n) : setFieldAt w i j n = w :=
  word_ext fun k hk => by
    rw [bitAt_setFieldAt _ _ hj hk]
    split
    next hin => rw [← h, testBit_fieldAt _ _ hj, decide_eq_true (by omega), Bool.true_and, show j - (j - k) = k by omega]
    next => rfl

end

section

variable {s u : State} {st sink : Bool} {dm : Nat} {a : DevAddr}

/-- A load/unload sequence begun afresh as recorded. -/
theorem State.beginTransfer_nothingToResume (h : u.recordsTransfer st sink dm a) : u.nothingToResume.beginTransfer st sink dm a = u := by
  obtain ⟨hrep, htype, hst, hsink, hdm, ha⟩ := h
  have hfield {i j : Nat} (hj : j < 23) : fieldAt (setBitAt u.rsr 23 false) i j = fieldAt u.rsr i j :=
    fieldAt_setBitAt_of_disjoint _ _ (by omega) (.inr hj)
  have hlow : fieldAt u.rsr 16 18 < 8 := Nat.mod_lt _ (by decide)
  have hbit {k : Nat} (hk : k ≠ 23) : bitAt (setBitAt u.rsr 23 false) k = bitAt u.rsr k := by simp [hk]
  unfold State.beginTransfer State.nothingToResume
  dsimp only
  rw [setFieldAt_eq_self (by decide) ((hfield (by decide)).trans htype), setBitAt_eq_self ((hbit (by decide)).trans hst),
    setBitAt_eq_self ((hbit (by decide)).trans hsink), setFieldAt_eq_self (n := dm / 8) (by decide) ((hfield (by decide)).trans (by omega)),
    setFieldAt_eq_self (n := dm % 8) (by decide) ((hfield (by decide)).trans (by omega)),
    setFieldAt_eq_self (by decide) ((hfield (by decide)).trans ha)]
  have hrsr : setBitAt (setBitAt u.rsr 23 false) 23 true = u.rsr :=
    word_ext fun k _ => by
      rw [bitAt_setBitAt, bitAt_setBitAt]
      split
      next hk => rw [hk.1]; exact hrep.symm
      next => rfl
  rw [hrsr]

/-- A drawing sequence begun afresh. -/
theorem State.beginDraw_nothingToResume (f1 : Fsm1) (f2 : Fsm2) : u.nothingToResume.beginDraw f1 f2 = u.beginDraw f1 f2 := by
  have hrsr : setBitAt (setFieldAt (setBitAt u.rsr 23 false) 2 4 4) 23 true = setBitAt (setFieldAt u.rsr 2 4 4) 23 true :=
    word_ext fun k hk => by
      rw [bitAt_setBitAt, bitAt_setBitAt, bitAt_setFieldAt _ _ (by decide) hk, bitAt_setFieldAt _ _ (by decide) hk, bitAt_setBitAt]
      split <;> rfl
  unfold State.beginDraw State.nothingToResume
  dsimp only
  rw [hrsr]

theorem State.nothingToResume_repeatBit (u : State) : u.nothingToResume.repeatBit = false := u.endRepeat_repeatBit

theorem State.settle_nothingToResume (hu : u = s.settle) : u.nothingToResume.settle = u.nothingToResume :=
  State.settle_of_empty (by rw [hu]; exact s.settle_queue)

end

/-! ### Words read and written, whatever REPEAT STATUS is (R436, R437) -/

/-- A read with another REPEAT STATUS. -/
def readWithRsr {α : Type} (w : Word) : Except Stopped (α × State) → Except Stopped (α × State)
  | .ok (x, s) => .ok (x, { s with rsr := w })
  | .error (c, k, s) => .error (c, k, { s with rsr := w })

section

variable (s : State) (w a k : Word)

theorem readWithRsr_bind {α β : Type} {x : Except Stopped (α × State)} {f g : α × State → Except Stopped (β × State)}
    (h : ∀ y t, g (y, { t with rsr := w }) = readWithRsr w (f (y, t))) : (readWithRsr w x >>= g) = readWithRsr w (x >>= f) := by
  rcases x with ⟨c, k, t⟩ | ⟨y, t⟩
  · rfl
  · exact h y t

theorem State.readFirst_withRsr : State.readFirst { s with rsr := w } a = readWithRsr w (s.readFirst a) := by
  have h : State.memRead { s with rsr := w } a = s.memRead a := rfl
  unfold State.readFirst
  rw [h]
  cases s.memRead a <;> rfl

theorem State.readNext_withRsr : State.readNext { s with rsr := w } k a = readWithRsr w (s.readNext k a) := by
  have h : State.memRead { s.gap with rsr := w } a = s.gap.memRead a := rfl
  unfold State.readNext
  rw [State.gap_withRsr, h]
  cases s.gap.memRead a <;> rfl

theorem State.readUp_withRsr (twoD : Bool) : State.readUp { s with rsr := w } twoD a = readWithRsr w (s.readUp twoD a) := by
  unfold State.readUp
  rw [State.readFirst_withRsr]
  refine readWithRsr_bind w fun y0 t0 => ?_
  dsimp only
  rw [State.readNext_withRsr]
  refine readWithRsr_bind w fun y1 t1 => ?_
  cases twoD
  case true => rfl
  dsimp only
  rw [if_neg (by decide), if_neg (by decide), State.readNext_withRsr]
  refine readWithRsr_bind w fun y2 t2 => ?_
  dsimp only
  rw [State.readNext_withRsr]
  exact readWithRsr_bind w fun y3 t3 => rfl

theorem State.readDown_withRsr (twoD : Bool) : State.readDown { s with rsr := w } twoD a = readWithRsr w (s.readDown twoD a) := by
  unfold State.readDown
  rw [State.readFirst_withRsr]
  refine readWithRsr_bind w fun y0 t0 => ?_
  dsimp only
  rw [State.readNext_withRsr]
  refine readWithRsr_bind w fun y1 t1 => ?_
  cases twoD
  case true => rfl
  dsimp only
  rw [if_neg (by decide), if_neg (by decide), State.readNext_withRsr]
  refine readWithRsr_bind w fun y2 t2 => ?_
  dsimp only
  rw [State.readNext_withRsr]
  exact readWithRsr_bind w fun y3 t3 => rfl

theorem State.readPoint_withRsr : State.readPoint { s with rsr := w } a = readWithRsr w (s.readPoint a) := by
  have hdim : State.dim { s with rsr := w } = s.dim := rfl
  unfold State.readPoint
  rw [State.readFirst_withRsr, hdim]
  refine readWithRsr_bind w fun y0 t0 => ?_
  dsimp only
  rw [State.readNext_withRsr]
  refine readWithRsr_bind w fun y1 t1 => ?_
  cases s.dim
  case twoD => rfl
  case homog =>
    dsimp only
    rw [State.readNext_withRsr]
    refine readWithRsr_bind w fun y2 t2 => ?_
    dsimp only
    rw [State.readNext_withRsr]
    exact readWithRsr_bind w fun y3 t3 => rfl
  case mm3d | cd3d =>
    dsimp only
    rw [State.readNext_withRsr]
    exact readWithRsr_bind w fun y2 t2 => rfl

theorem State.fetchWords_withRsr (sink : Bool) : State.fetchWords { s with rsr := w } sink = readWithRsr w (s.fetchWords sink) := by
  unfold State.fetchWords
  cases sink
  case true =>
    rw [if_pos rfl, if_pos rfl]
    exact (congrArg (· >>= _) (s.readDown_withRsr w _ _)).trans (readWithRsr_bind w fun y t => rfl)
  case false =>
    rw [if_neg (by decide), if_neg (by decide)]
    exact (congrArg (· >>= _) (s.readUp_withRsr w _ _)).trans (readWithRsr_bind w fun y t => rfl)

theorem State.writeUp_withRsr (ws : List Word) :
    State.writeUp { s with rsr := w } a ws = ({ (s.writeUp a ws).1 with rsr := w }, (s.writeUp a ws).2) := by
  induction ws generalizing s a with
  | nil => rfl
  | cons y ws ih =>
    cases hw : s.memWrite a y with
    | error c =>
      have hw' : State.memWrite { s with rsr := w } a y = .error c := State.memWrite_eq_error.mpr (State.memWrite_eq_error.mp hw :)
      rw [State.writeUp_error hw, State.writeUp_error hw']
    | ok t =>
      have hw' : State.memWrite { s with rsr := w } a y = .ok { t with rsr := w } := by
        have hview : State.SameView { s with rsr := w } s := ⟨rfl, rfl, rfl, rfl, rfl, rfl, rfl⟩
        rw [hview.memWrite hw, State.memWrite_frame hw]
        rfl
      cases ws with
      | nil => rw [State.writeUp_last hw, State.writeUp_last hw']
      | cons z zs => rw [State.writeUp_next hw, State.writeUp_next hw', State.gap_withRsr, ih]

theorem State.storeWords_withRsr (sink : Bool) (d : Tuple) :
    State.storeWords { s with rsr := w } sink d = ({ (s.storeWords sink d).1 with rsr := w }, (s.storeWords sink d).2) := by
  have hwrite := s.writeUp_withRsr w (s.reg (if sink then Reg.dsp else Reg.rp)) d.words
  rcases hr : s.writeUp (s.reg (if sink then Reg.dsp else Reg.rp)) d.words with ⟨t, o⟩
  rw [hr] at hwrite
  unfold State.storeWords
  dsimp only
  rw [hr, show State.reg { s with rsr := w } = s.reg from rfl, hwrite]
  cases o <;> rfl

/-! ### Between two iterations (R114, R126, R127) -/

theorem State.pipelineStep_withRsr : State.pipelineStep { s with rsr := w } = { s.pipelineStep with rsr := w } := by
  obtain hq | ⟨c, rest, hq⟩ : s.queue = [] ∨ ∃ c rest, s.queue = c :: rest := by cases s.queue <;> simp
  · rw [State.pipelineStep_nil hq, State.pipelineStep_nil (s := { s with rsr := w }) hq]
  · rw [State.pipelineStep_cons hq, State.pipelineStep_cons (s := { s with rsr := w }) hq]
    have h := State.apply_withChannel { s with queue := rest } w rest c
    exact h.trans (congrArg (State.withChannel _ w) (State.apply_queue { s with queue := rest } c).symm)

theorem State.betweenIterations_withRsr (e : AgentEvent) :
    State.betweenIterations { s with rsr := w } e = { s.betweenIterations e with rsr := w } := by
  cases e
  case pipeline => exact s.pipelineStep_withRsr w
  case hostRead a =>
    unfold State.betweenIterations State.hostRead
    dsimp only
    split <;> rfl
  case hostWrite a v =>
    unfold State.betweenIterations State.hostWrite
    dsimp only
    split <;> rfl
  all_goals rfl

omit s w in
theorem State.turn_cons {s : State} {es : List AgentEvent} {rest : Turns} (h : s.turns = es :: rest) :
    s.turn = es.foldl State.betweenIterations { s with turns := rest } := by
  rw [State.turn, State.popTurn, h]

theorem State.turn_withRsr : State.turn { s with rsr := w } = { s.turn with rsr := w } := by
  obtain ht | ⟨es, rest, ht⟩ : s.turns = [] ∨ ∃ es rest, s.turns = es :: rest := by cases s.turns <;> simp
  · rw [State.turn_nil ht, State.turn_nil (s := { s with rsr := w }) ht]
  · rw [State.turn_cons ht, State.turn_cons (s := { s with rsr := w }) ht]
    exact List.foldl_hom (init := { s with turns := rest }) (fun t : State => { t with rsr := w })
      fun t e => t.betweenIterations_withRsr w e

end

/-! ### The instructions without a register address (R461, R476) -/

/-- `s` with another REPEAT STATUS. -/
def State.withRsr (s : State) (w : Word) : State := { s with rsr := w }

/-- The actions that do not look at the register address. -/
def Action.addressFree (act : Action) : Prop := act = .load .mdr ∨ act = .unload .directive

section

variable {act : Action}

theorem State.transferOnce_addressFree (hact : act.addressFree) (sink : Bool) (a b : DevAddr) (s : State) (w : Word) :
    (s.withRsr w).transferOnce act sink a = ((s.transferOnce act sink b).1.withRsr w, (s.transferOnce act sink b).2) := by
  rcases hact with rfl | rfl
  · have hfetch : (s.withRsr w).fetchWords sink = readWithRsr w (s.fetchWords sink) := s.fetchWords_withRsr w sink
    unfold State.transferOnce
    dsimp only
    rw [hfetch]
    rcases s.fetchWords sink with ⟨c, k, t⟩ | ⟨d, t⟩
    · rfl
    · cases d <;> rfl
  · exact s.storeWords_withRsr w sink _

/-- The counted loop of such an action, at any address and with any REPEAT STATUS. -/
theorem State.transferLoop_addressFree (hact : act.addressFree) (st sink : Bool) (n : Nat) (a b : DevAddr) (s : State) (w : Word) :
    ∃ w', State.transferLoop act st sink n a (s.withRsr w) = (State.transferLoop act st sink n b s).withRsr w' := by
  induction n generalizing a b s w with
  | zero => exact ⟨w, rfl⟩
  | succ n ih =>
    rcases hr : s.transferOnce act sink b with ⟨y, o⟩
    have honce (c : DevAddr) (v : Word) : (s.withRsr v).transferOnce act sink c = (y.withRsr v, o) := by
      rw [State.transferOnce_addressFree hact sink c b s v, hr]
    have hself : (s.setRsrAddress b).transferOnce act sink b = (y.withRsr (s.setRsrAddress b).rsr, o) := honce b _
    have hother : ((s.withRsr w).setRsrAddress a).transferOnce act sink a = (y.withRsr ((s.withRsr w).setRsrAddress a).rsr, o) := honce a _
    cases o with
    | some c =>
      rw [State.transferLoop_error hother, State.transferLoop_error hself]
      exact ⟨_, rfl⟩
    | none =>
      cases hbit : bitAt (y.reg Reg.rc) 0 with
      | false =>
        rw [State.transferLoop_uncounted hother hbit, State.transferLoop_uncounted hself hbit]
        exact ⟨_, rfl⟩
      | true =>
        by_cases hzero : y.reg Reg.rc + 1 = 0
        · rw [State.transferLoop_last hother hbit hzero, State.transferLoop_last hself hbit hzero]
          exact ⟨_, rfl⟩
        · have hturn : ((y.withRsr ((s.withRsr w).setRsrAddress a).rsr).setReg Reg.rc (y.reg Reg.rc + 1)).turn =
              ((y.withRsr (s.setRsrAddress b).rsr).setReg Reg.rc (y.reg Reg.rc + 1)).turn.withRsr ((s.withRsr w).setRsrAddress a).rsr :=
            State.turn_withRsr ((y.withRsr (s.setRsrAddress b).rsr).setReg Reg.rc (y.reg Reg.rc + 1)) _
          obtain ⟨w', hw'⟩ := ih (nextAddress st sink a) (nextAddress st sink b)
            ((y.withRsr (s.setRsrAddress b).rsr).setReg Reg.rc (y.reg Reg.rc + 1)).turn ((s.withRsr w).setRsrAddress a).rsr
          rw [← hturn] at hw'
          rw [State.transferLoop_next hother hbit hzero, State.transferLoop_next hself hbit hzero]
          exact ⟨w', hw'⟩

theorem State.regTransferOnce_addressFree (hact : act.addressFree) (c : Reg) (a b : DevAddr) (s : State) (w : Word) :
    (s.withRsr w).regTransferOnce act c a = (s.regTransferOnce act c b).withRsr w := by
  rcases hact with rfl | rfl
  · have hload (d : Tuple) : (s.withRsr w).loadMdirTuple d = (s.loadMdirTuple d).withRsr w := by cases d <;> rfl
    exact hload _
  · have hstore (d : Tuple) : (s.withRsr w).setRegTuple c d = (s.setRegTuple c d).withRsr w := by cases d <;> rfl
    exact hstore _

/-- A register form of such an action. -/
theorem State.regTransfer_addressFree (hact : act.addressFree) (x : XSel) (a b : DevAddr) (s : State) (w : Word) :
    ∃ w', (s.withRsr w).regTransfer act x a = (s.regTransfer act x b).withRsr w' := by
  have honce (c : DevAddr) (v : Word) : (s.withRsr v).regTransferOnce act (xFirst x) c = (s.regTransferOnce act (xFirst x) b).withRsr v :=
    State.regTransferOnce_addressFree hact _ c b s v
  have hself : (s.setRsrAddress b).regTransferOnce act (xFirst x) b = (s.regTransferOnce act (xFirst x) b).withRsr (s.setRsrAddress b).rsr :=
    honce b _
  have hother : ((s.withRsr w).setRsrAddress a).regTransferOnce act (xFirst x) a =
      (s.regTransferOnce act (xFirst x) b).withRsr ((s.withRsr w).setRsrAddress a).rsr := honce a _
  cases hx : xDouble x with
  | false =>
    rw [State.regTransfer_single hx, State.regTransfer_single hx, hself, hother]
    exact ⟨_, rfl⟩
  | true =>
    have htwice (v : Word) (c : DevAddr) : (((s.regTransferOnce act (xFirst x) b).withRsr v).setRsrAddress c).regTransferOnce act
        (secondGroup s.twoD (xFirst x)) c = ((s.regTransferOnce act (xFirst x) b).regTransferOnce act (secondGroup s.twoD (xFirst x))
          b).withRsr (((s.regTransferOnce act (xFirst x) b).withRsr v).setRsrAddress c).rsr :=
      State.regTransferOnce_addressFree hact (secondGroup s.twoD (xFirst x)) c b (s.regTransferOnce act (xFirst x) b)
        (((s.regTransferOnce act (xFirst x) b).withRsr v).setRsrAddress c).rsr
    rw [State.regTransfer_double hx, State.regTransfer_double hx, hself, hother, htwice,
      show (s.withRsr w).twoD = s.twoD from rfl, htwice]
    exact ⟨_, rfl⟩

theorem State.setMm_withRsr (s : State) (w : Word) (a : DevAddr) (c : Fin 4) (v : Word) :
    (s.withRsr w).setMm a c v = (s.setMm a c v).withRsr w := rfl

theorem State.normalize_withRsr (n : Nat) (s : State) (w : Word) :
    State.normalize n (s.withRsr w) = (State.normalize n s).withRsr w := by
  induction n generalizing s with
  | zero => rfl
  | succ n ih =>
    have hshift : (s.withRsr w).shiftA = s.shiftA.withRsr w :=
      List.foldl_hom (State.withRsr · w) fun t p => State.setMm_withRsr t w p.1 p.2 _
    rw [State.normalize, State.normalize, hshift, ih, show (s.withRsr w).anyBig = s.anyBig from rfl]
    cases s.anyBig <;> rfl

theorem State.nomm_withRsr (s : State) (w : Word) : ∃ w', (s.withRsr w).nomm = s.nomm.withRsr w' := by
  have hnormalize := State.normalize_withRsr (iterations (s.reg Reg.rc)) s w
  refine ⟨setBitAt w 23 false, ?_⟩
  unfold State.nomm
  dsimp only
  rw [show (s.withRsr w).twoD = s.twoD from rfl]
  cases s.twoD
  · exact congrArg (fun t : State => (t.setReg Reg.rc 0).endRepeat) hnormalize
  · rfl

/-- A sequence of an action without a register address comes to the same at any address, but for REPEAT STATUS. -/
theorem State.runTransfer_addressFree {st sink : Bool} {dm : Nat}
    (hact : ∃ act, actionOf st sink dm = some act ∧ (act = .normalize ∨ act.addressFree)) (form : TransferForm) (a b : DevAddr) (s : State)
    (w : Word) : ∃ w', (s.withRsr w).runTransfer form st sink dm a = (s.runTransfer form st sink dm b).withRsr w' := by
  obtain ⟨act, hdm, rfl | hfree⟩ := hact
  · unfold State.runTransfer
    rw [hdm]
    exact s.nomm_withRsr w
  · have hpointer := State.transferLoop_addressFree hfree st sink (iterations (s.reg Reg.rc)) a b s w
    have hregisters := fun x => State.regTransfer_addressFree hfree x a b s w
    unfold State.runTransfer
    rw [hdm]
    rcases hfree with rfl | rfl <;> cases form
    · exact hpointer
    · exact hregisters _
    · exact hpointer
    · exact hregisters _

end

end Sys2Proof.Machine
end

section
/-!
What REPEAT STATUS records is resumed (R438, R479, R505; log 32).
-/

namespace Sys2Proof.Machine

/-! ### The instructions that begin a sequence (R421, R490) -/

/-- The drawing class that the word of a load/unload instruction through RP or DSP selects (log 32). -/
def pointerClass (st sink : Bool) (b : DevAddr) : DrawClass :=
  if sink then .matrix (decide (8 ≤ b.val)) else .table st false (decide (8 ≤ b.val))

theorem exec_pointerForm : ∀ f ∈ pointerForms, ∀ b s,
    exec (f.1 b) s = .next (s.startTransfer .pointer (pointerClass f.2.1 f.2.2.1 b) f.2.1 f.2.2.1 f.2.2.2 b) := by
  simp only [pointerForms, List.forall_mem_cons]
  repeat refine ⟨fun _ _ => rfl, ?_⟩
  exact fun _ h => nomatch h

theorem exec_plainForm : ∀ f ∈ plainForms, ∃ c, ∀ s, exec f.1 s = .next (s.startTransfer .pointer c f.2.1 f.2.2.1 f.2.2.2 0) := by
  simp only [plainForms, List.forall_mem_cons]
  repeat refine ⟨⟨_, fun _ => rfl⟩, ?_⟩
  exact fun _ h => nomatch h

theorem exec_registerForm : ∀ f ∈ registerForms, ∀ b, ∃ b', (f.2.2 ≠ 7 → b' = b) ∧
    ∀ x s, exec (f.1 b x) s = .next (s.registerForm f.2.1 f.2.2 b' x) := by
  simp only [registerForms, List.forall_mem_cons]
  exact ⟨fun _ => ⟨_, fun _ => rfl, fun _ _ => rfl⟩, fun _ => ⟨_, fun _ => rfl, fun _ _ => rfl⟩, fun _ => ⟨_, fun _ => rfl, fun _ _ => rfl⟩,
    fun _ => ⟨_, fun _ => rfl, fun _ _ => rfl⟩, fun _ => ⟨_, fun _ => rfl, fun _ _ => rfl⟩,
    fun _ => ⟨_, fun h => absurd rfl h, fun _ _ => rfl⟩, fun _ => ⟨_, fun _ => rfl, fun _ _ => rfl⟩,
    fun _ => ⟨_, fun _ => rfl, fun _ _ => rfl⟩, fun _ => ⟨_, fun h => absurd rfl h, fun _ _ => rfl⟩, fun _ h => nomatch h⟩

section

variable {s u : State} {st sink : Bool} {dm : Nat} {a : DevAddr}

/-! ### A load/unload sequence (R438) -/

theorem State.resumeTransfer_eq (h : u.recordsTransfer st sink dm a) (form : TransferForm) :
    u.resumeTransfer form = u.runTransfer form st sink dm a := by
  obtain ⟨-, -, rfl, rfl, rfl, ha⟩ := h
  have haddress : u.rsrAddress = a := by rw [State.rsrAddress, ha, Fin.ofNat_val_eq_self]
  rw [State.resumeTransfer, haddress]
  rfl

theorem State.recordsTransfer.not_drawing (h : u.recordsTransfer st sink dm a) : u.rsrDrawing = false := by
  rw [State.rsrDrawing, h.2.1]
  rfl

/-- A load/unload instruction resumes the load/unload sequence recorded. -/
theorem State.startTransfer_resumes (hu : u = s.settle) (h : u.recordsTransfer st sink dm a) (form : TransferForm) (c : DrawClass)
    (st' sink' : Bool) (dm' : Nat) (b : DevAddr) : s.startTransfer form c st' sink' dm' b = u.runTransfer form st sink dm a := by
  unfold State.startTransfer
  dsimp only
  rw [← hu, if_pos h.1, h.not_drawing, if_neg (by decide), State.resumeTransfer_eq h]

theorem State.rsr_of_settle (hu : u = s.settle) : s.rsr = u.rsr := by rw [hu, State.settle_rsr]

/-- Where a drawing instruction moves the words of a load/unload sequence that it resumes (log 32). -/
def resumedForm (c : DrawClass) : TransferForm :=
  match c with
  | .register x => .registers x
  | .table .. => .pointer
  | .matrix _ => .pointer

/-- A drawing instruction resumes the load/unload sequence recorded. -/
theorem State.startDraw_resumesTransfer (hu : u = s.settle) (h : u.recordsTransfer st sink dm a) (c : DrawClass) (f1 : Fsm1) (f2 : Fsm2) :
    s.startDraw c f1 f2 = u.runTransfer (resumedForm c) st sink dm a := by
  have hrsr := State.rsr_of_settle hu
  have hrep : s.repeatBit = true := (congrArg (bitAt · 23) hrsr).trans h.1
  have hdrawing : s.rsrDrawing = false := (congrArg (fieldAt · 2 4 == 4) hrsr).trans h.not_drawing
  have htransfer : s.rsrTransfer = true := by rw [State.rsrTransfer, hrsr, h.2.1]; rfl
  unfold State.startDraw
  rw [hrep, hdrawing, htransfer, if_neg (by decide), if_pos (by decide), ← hu, State.resumeTransfer_eq h]
  rfl

/-- Whatever instruction without registers is executed, the sequence recorded goes on through RP or DSP. -/
theorem exec_pointer_resumes (hu : u = s.settle) (h : u.recordsTransfer st sink dm a) {i : Instr} (hi : isPointerForm i ∨ isPointerDraw i) :
    exec i s = .next (u.runTransfer .pointer st sink dm a) := by
  rcases hi with (⟨f, hf, b, rfl⟩ | ⟨f, hf, rfl⟩) | ⟨f, hf, g1, g2, rfl⟩ | ⟨g, rfl | rfl⟩
  · rw [exec_pointerForm f hf, State.startTransfer_resumes hu h]
  · obtain ⟨c, hexec⟩ := exec_plainForm f hf
    rw [hexec, State.startTransfer_resumes hu h]
  · rw [exec_tableDraw f hf, State.startDraw_resumesTransfer hu h]
    rfl
  · exact congrArg Host.Outcome.next (State.startDraw_resumesTransfer hu h (.matrix false) g .aa)
  · exact congrArg Host.Outcome.next (State.startDraw_resumesTransfer hu h (.matrix true) g .aa)

/-- Whatever instruction with registers is executed, the sequence recorded goes on through them. -/
theorem exec_register_resumes (hu : u = s.settle) (h : u.recordsTransfer st sink dm a) {i : Instr} {x : XSel} (hi : isRegisterForm x i) :
    exec i s = .next (u.runTransfer (.registers x) st sink dm a) := by
  rcases hi with ⟨f, hf, b, rfl⟩ | ⟨g1, g2, rfl⟩
  · obtain ⟨b', -, hexec⟩ := exec_registerForm f hf b
    rw [hexec, State.registerForm, State.startTransfer_resumes hu h]
  · exact congrArg Host.Outcome.next (State.startDraw_resumesTransfer hu h (.register x) g1 g2)

/-- The instruction recorded, begun afresh at the address recorded. -/
theorem State.startTransfer_afresh (hu : u = s.settle) (h : u.recordsTransfer st sink dm a) (form : TransferForm) (c : DrawClass) :
    u.nothingToResume.startTransfer form c st sink dm a = u.runTransfer form st sink dm a := by
  rw [State.startTransfer_begin (State.settle_nothingToResume hu).symm u.nothingToResume_repeatBit, State.beginTransfer_nothingToResume h]

/-- An instruction recorded that has no address, begun afresh. -/
theorem State.startTransfer_afresh_addressFree (hu : u = s.settle)
    (hact : ∃ act, actionOf st sink dm = some act ∧ (act = .normalize ∨ act.addressFree)) (form : TransferForm) (c : DrawClass)
    (a b : DevAddr) : u.runTransfer form st sink dm a = { u.nothingToResume.startTransfer form c st sink dm b with
      rsr := (u.runTransfer form st sink dm a).rsr } := by
  rw [State.startTransfer_begin (State.settle_nothingToResume hu).symm u.nothingToResume_repeatBit]
  obtain ⟨w', hw'⟩ := State.runTransfer_addressFree hact form b a u (u.nothingToResume.beginTransfer st sink dm b).rsr
  rw [show u.nothingToResume.beginTransfer st sink dm b = u.withRsr (u.nothingToResume.beginTransfer st sink dm b).rsr from rfl, hw']
  rfl

end

/-- The forms without an address have actions that do not look at one. -/
theorem actionOf_plainForm : ∀ f ∈ plainForms, ∃ act, actionOf f.2.1 f.2.2.1 f.2.2.2 = some act ∧ (act = .normalize ∨ act.addressFree) := by
  simp only [plainForms, List.forall_mem_cons]
  exact ⟨⟨_, rfl, .inr (.inl rfl)⟩, ⟨_, rfl, .inr (.inl rfl)⟩, ⟨_, rfl, .inr (.inr rfl)⟩, ⟨_, rfl, .inr (.inr rfl)⟩, ⟨_, rfl, .inl rfl⟩,
    fun _ h => nomatch h⟩

theorem actionOf_registerForm_seven : ∀ f ∈ registerForms, f.2.2 = 7 → ∃ act, actionOf f.2.1 false f.2.2 = some act ∧
    (act = .normalize ∨ act.addressFree) := by
  simp only [registerForms, List.forall_mem_cons]
  exact ⟨fun h => absurd h (by decide), fun h => absurd h (by decide), fun h => absurd h (by decide), fun h => absurd h (by decide),
    fun h => absurd h (by decide), fun _ => ⟨_, rfl, .inr (.inl rfl)⟩, fun h => absurd h (by decide), fun h => absurd h (by decide),
    fun _ => ⟨_, rfl, .inr (.inr rfl)⟩, fun _ h => nomatch h⟩

/-- A device and manner of no instruction have no action. -/
theorem actionOf_none {st sink : Bool} {dm : Nat} (hp : ∀ f ∈ pointerForms, f.2 ≠ (st, sink, dm)) (hq : ∀ f ∈ plainForms, f.2 ≠ (st, sink, dm)) :
    actionOf st sink dm = none := by
  have hlow : ∀ (st sink : Bool) (dm : Fin 8), actionOf st sink dm.val = none ∨ (∃ f ∈ pointerForms, f.2 = (st, sink, dm.val)) ∨
      ∃ f ∈ plainForms, f.2 = (st, sink, dm.val) := by decide
  by_cases hdm : dm < 8
  · rcases hlow st sink ⟨dm, hdm⟩ with hnone | ⟨f, hf, h⟩ | ⟨f, hf, h⟩
    · exact hnone
    · exact absurd h (hp f hf)
    · exact absurd h (hq f hf)
  · obtain ⟨k, rfl⟩ := Nat.exists_eq_add_of_le' (not_lt.mp hdm)
    cases st <;> cases sink <;> rfl

/-! ### A drawing sequence (R505) -/

/-- The point of a table draw with another REPEAT STATUS. -/
def pointWithRsr (w : Word) : Except (Cond × State) (Fetched × State) → Except (Cond × State) (Fetched × State)
  | .ok (d, s) => .ok (d, s.withRsr w)
  | .error (c, s) => .error (c, s.withRsr w)

section

variable {s u : State} {f1 : Fsm1} {f2 : Fsm2} {rep : Bool}

theorem State.tablePoint_withRsr (s : State) (w : Word) (ind idx : Bool) :
    (s.withRsr w).tablePoint ind idx = pointWithRsr w (s.tablePoint ind idx) := by
  have hpoint (t : State) (a : Word) : (t.withRsr w).readPoint a = readWithRsr w (t.readPoint a) := t.readPoint_withRsr w a
  cases ind with
  | false =>
    unfold State.tablePoint
    dsimp only
    rw [if_neg (by decide), if_neg (by decide), show (s.withRsr w).reg Reg.rp = s.reg Reg.rp from rfl, hpoint]
    rcases s.readPoint (s.reg Reg.rp) with ⟨c, k, t⟩ | ⟨d, t⟩ <;> rfl
  | true =>
    have hgap : ((s.withRsr w).setReg Reg.rp (s.reg Reg.rp + 1)).gap = (s.setReg Reg.rp (s.reg Reg.rp + 1)).gap.withRsr w :=
      State.gap_withRsr (s.setReg Reg.rp (s.reg Reg.rp + 1)) w
    have hir : ((s.setReg Reg.rp (s.reg Reg.rp + 1)).gap.withRsr w).reg Reg.ir = (s.setReg Reg.rp (s.reg Reg.rp + 1)).gap.reg Reg.ir := rfl
    unfold State.tablePoint
    dsimp only
    rw [if_pos rfl, if_pos rfl, show (s.withRsr w).reg Reg.rp = s.reg Reg.rp from rfl,
      show (s.withRsr w).memRead (s.reg Reg.rp) = s.memRead (s.reg Reg.rp) from rfl]
    cases s.memRead (s.reg Reg.rp) with
    | error c => rfl
    | ok q =>
      dsimp only
      rw [hgap, hir, hpoint]
      rcases State.readPoint _ _ with ⟨c, k, t⟩ | ⟨d, t⟩ <;> rfl

theorem fsm1Of_fsm1Code (f : Fsm1) : fsm1Of (fsm1Code f) = f := by cases f <;> rfl

theorem fsm2Of_fsm2Code (f : Fsm2) : fsm2Of (fsm2Code f) = f := by cases f <;> rfl

theorem State.resumeDraw_eq (h : u.drawRecorded f1 f2 rep) (c : DrawClass) : u.resumeDraw c = u.runDraw c f1 f2 := by
  rw [State.resumeDraw, h.2.1, h.2.2.1, fsm1Of_fsm1Code, fsm2Of_fsm2Code]

/-- A load/unload instruction resumes the drawing sequence recorded. -/
theorem State.startTransfer_resumesDraw (hu : u = s.settle) (h : u.drawRecorded f1 f2 true) (form : TransferForm) (c : DrawClass)
    (st sink : Bool) (dm : Nat) (b : DevAddr) : s.startTransfer form c st sink dm b = u.runDraw c f1 f2 := by
  obtain ⟨htype, -, -, hrep⟩ := id h
  have hdrawing : u.rsrDrawing = true := by rw [State.rsrDrawing, htype]; rfl
  unfold State.startTransfer
  dsimp only
  rw [← hu, if_pos hrep, if_pos hdrawing, State.resumeDraw_eq h]

/-- A drawing instruction resumes the drawing sequence recorded. -/
theorem State.startDraw_resumes (h : s.drawRecorded f1 f2 true) (c : DrawClass) (g1 : Fsm1) (g2 : Fsm2) :
    s.startDraw c g1 g2 = s.runDraw c f1 f2 := by
  obtain ⟨htype, -, -, hrep⟩ := id h
  have hdrawing : s.rsrDrawing = true := by rw [State.rsrDrawing, htype]; rfl
  unfold State.startDraw
  rw [hrep, hdrawing, if_pos (by decide), State.resumeDraw_eq h]

/-- The drawing sequence recorded, begun afresh. -/
theorem State.startDraw_afresh (u : State) (c : DrawClass) : u.nothingToResume.startDraw c f1 f2 = u.nothingToResume.runDraw c f1 f2 :=
  State.startDraw_begin u.nothingToResume_repeatBit c

/-- Every class but the table draws without repeat comes to the same. -/
theorem State.runDraw_nothingToResume (u : State) {c : DrawClass} (hc : ∀ ind idx, c ≠ .table ind idx false) :
    u.nothingToResume.runDraw c f1 f2 = u.runDraw c f1 f2 := by
  cases c with
  | table ind idx rep =>
    cases rep with
    | false => exact absurd rfl (hc ind idx)
    | true => exact congrArg (State.tableDraw ind idx (iterations (u.reg Reg.rc)) f1 f2) (State.beginDraw_nothingToResume f1 f2)
  | matrix rep => exact congrArg (State.matrixDraw rep (iterations (u.reg Reg.rc)) f1 f2) (State.beginDraw_nothingToResume f1 f2)
  | register x => exact congrArg (fun t : State => t.registerDraw x f1 f2) (State.beginDraw_nothingToResume f1 f2)

/-- A drawing instruction of such a class, and the one recorded begun afresh. -/
theorem State.startDraw_same (h : s.drawRecorded f1 f2 true) {c : DrawClass} (hc : ∀ ind idx, c ≠ .table ind idx false) (g1 : Fsm1) (g2 : Fsm2) :
    s.startDraw c g1 g2 = s.nothingToResume.startDraw c f1 f2 := by
  rw [State.startDraw_resumes h, State.startDraw_afresh, State.runDraw_nothingToResume s hc]

/-- A table draw without repeat comes to the same, or is stopped with REPEAT STATUS as it was. -/
theorem State.tableOnce_resumedAs (u : State) (ind idx : Bool) :
    u.resumedAs (u.tableOnce ind idx f1 f2) (u.nothingToResume.tableOnce ind idx f1 f2) := by
  have hafresh : u.nothingToResume.tablePoint ind idx = pointWithRsr u.nothingToResume.rsr (u.tablePoint ind idx) :=
    u.tablePoint_withRsr u.nothingToResume.rsr ind idx
  have hself : u.tablePoint ind idx = pointWithRsr u.rsr (u.tablePoint ind idx) := u.tablePoint_withRsr u.rsr ind idx
  unfold State.tableOnce
  rw [hafresh]
  rcases hpoint : u.tablePoint ind idx with ⟨c, t⟩ | ⟨d, t⟩
  case error =>
    rw [hpoint] at hself
    have ht : t = t.withRsr u.rsr := by simpa [pointWithRsr] using hself
    have hrsr : t.rsr = u.rsr := by rw [ht]; rfl
    exact ⟨rfl, .inr ⟨rfl, hrsr, rfl⟩⟩
  case ok =>
    rw [hpoint] at hself
    have ht : t = t.withRsr u.rsr := by simpa [pointWithRsr] using hself
    have hbegin : (t.withRsr u.nothingToResume.rsr).beginDraw f1 f2 = t.beginDraw f1 f2 := by
      rw [ht]
      exact State.beginDraw_nothingToResume f1 f2
    dsimp only [pointWithRsr]
    rw [hbegin]
    exact ⟨rfl, .inl rfl⟩

theorem State.runDraw_resumedAs (u : State) (c : DrawClass) : u.resumedAs (u.runDraw c f1 f2) (u.nothingToResume.runDraw c f1 f2) := by
  by_cases hc : ∀ ind idx, c ≠ .table ind idx false
  · rw [State.runDraw_nothingToResume u hc]
    exact ⟨rfl, .inl rfl⟩
  · simp only [not_forall, ne_eq, not_not] at hc
    obtain ⟨ind, idx, rfl⟩ := hc
    exact u.tableOnce_resumedAs ind idx

end

/-- The table draw that the word of a load/unload instruction through RP selects. -/
theorem exec_tableDrawOf (st : Bool) (b : DevAddr) (f1 : Fsm1) (f2 : Fsm2) (s : State) :
    exec (tableDrawOf st b f1 f2) s = .next (s.startDraw (pointerClass st false b) f1 f2) := by
  unfold tableDrawOf pointerClass
  cases st <;> cases decide (8 ≤ b.val) <;> rfl

/-- The Matrix Multiplier draw that the word of a sink or a retrieve selects. -/
theorem exec_matrixDrawOf (st : Bool) (b : DevAddr) (f1 : Fsm1) (s : State) :
    exec (if 8 ≤ b.val then .mmdr f1 else .mmd f1) s = .next (s.startDraw (pointerClass st true b) f1 .aa) := by
  unfold pointerClass
  by_cases hb : 8 ≤ b.val
  · rw [if_pos hb, if_pos rfl, decide_eq_true hb]
    rfl
  · rw [if_neg hb, if_pos rfl, decide_eq_false hb]
    rfl

/-- Settles O48: every instruction of the two kinds runs what REPEAT STATUS records, and so does the instruction recorded, begun afresh. -/
theorem repeatStatusResumesTheRecordedSequence : Obligations.RepeatStatusResumesTheRecordedSequence := by
  intro s u hu
  have hrsr := State.rsr_of_settle hu
  refine ⟨fun st sink dm a h => ⟨fun i hi => ⟨fun f hf hf2 => ?pointer, fun f hf hf2 => ?plain, fun hp hq => ?none⟩,
    fun i x hi hsink f hf hf2 => ?registers⟩, fun f1 f2 h => ?draw⟩
  case pointer =>
    obtain ⟨rfl, rfl, rfl⟩ : f.2.1 = st ∧ f.2.2.1 = sink ∧ f.2.2.2 = dm := by rw [hf2]; exact ⟨rfl, rfl, rfl⟩
    rw [exec_pointer_resumes hu h hi, exec_pointerForm f hf, State.startTransfer_afresh hu h]
  case plain =>
    obtain ⟨rfl, rfl, rfl⟩ : f.2.1 = st ∧ f.2.2.1 = sink ∧ f.2.2.2 = dm := by rw [hf2]; exact ⟨rfl, rfl, rfl⟩
    obtain ⟨c, hexec⟩ := exec_plainForm f hf
    exact ⟨_, _, exec_pointer_resumes hu h hi, hexec _, State.startTransfer_afresh_addressFree hu (actionOf_plainForm f hf) .pointer c a 0⟩
  case none =>
    refine ⟨_, exec_pointer_resumes hu h hi, ?_⟩
    unfold State.runTransfer
    rw [actionOf_none hp hq]
    exact u.abandoned_raise .unimplemented
  case registers =>
    subst hsink
    obtain ⟨rfl, rfl⟩ : f.2.1 = st ∧ f.2.2 = dm := by rw [hf2]; exact ⟨rfl, rfl⟩
    obtain ⟨b, hb, hexec⟩ := exec_registerForm f hf a
    refine ⟨_, _, exec_register_resumes hu h hi, hexec x _, ?_⟩
    by_cases hseven : f.2.2 = 7
    · exact State.startTransfer_afresh_addressFree hu (actionOf_registerForm_seven f hf hseven) (.registers x) (.register x) a b
    · rw [State.registerForm, hb hseven, State.startTransfer_afresh hu h]
  case draw =>
    have hs : s.drawRecorded f1 f2 true := State.drawRecorded_congr hrsr h
    refine ⟨fun f hf g1 g2 => ?_, fun x g1 g2 => ?_, fun haa g => ?_, fun f hf b => ⟨fun hsink => ?_, fun hsink haa => ?_⟩, fun f hf b x => ?_⟩
    · refine ⟨_, _, exec_tableDraw f hf g1 g2 s, exec_tableDraw f hf f1 f2 _, ?_, fun hrep => ?_⟩
      · rw [State.startDraw_resumes hs, State.startDraw_afresh]
        exact s.runDraw_resumedAs _
      · exact State.startDraw_same hs (by simp [hrep]) g1 g2
    · exact congrArg Host.Outcome.next (State.startDraw_same hs (by simp) g1 g2)
    · subst haa
      exact ⟨congrArg Host.Outcome.next (State.startDraw_same hs (by simp) g .aa),
        congrArg Host.Outcome.next (State.startDraw_same hs (by simp) g .aa)⟩
    · refine ⟨_, _, exec_pointerForm f hf b s, exec_tableDrawOf f.2.1 b f1 f2 _, ?_, fun hb => ?_⟩
      · rw [State.startTransfer_resumesDraw hu h, State.startDraw_afresh, hsink]
        exact u.runDraw_resumedAs _
      · rw [State.startTransfer_resumesDraw hu h, State.startDraw_afresh, hsink, State.runDraw_nothingToResume]
        simp [pointerClass, hb]
    · subst haa
      rw [exec_pointerForm f hf, exec_matrixDrawOf f.2.1, State.startTransfer_resumesDraw hu h, State.startDraw_afresh, hsink,
        State.runDraw_nothingToResume u (by simp [pointerClass])]
    · obtain ⟨b', -, hexec⟩ := exec_registerForm f hf b
      rw [hexec, State.registerForm, State.startTransfer_resumesDraw hu h, ← State.runDraw_nothingToResume u (by simp), ← State.startDraw_afresh]
      rfl

end Sys2Proof.Machine
end

section
/-!
Output to memory (R127, R546, R555): what it looks at and what it changes, whatever the rest of the state is.
-/

namespace Sys2Proof.Machine

/-- `x` with what output to memory may change taken from `o`. -/
def State.withOutput (x o : State) : State :=
  { x with regs := o.regs, mem := o.mem, icr := o.icr, protFF := o.protFF, raised := o.raised, turns := o.turns, hostSeen := o.hostSeen }

/-- The addresses of memory are translated in the same way. -/
structure State.SameTranslation (x o : State) : Prop where
  mode : x.mode = o.mode
  params : x.params = o.params
  bar : x.bar = o.bar
  protection : x.protection = o.protection

section

variable {x o : State}

theorem State.SameTranslation.view (h : x.SameTranslation o) : (x.withOutput o).SameView o :=
  ⟨h.mode, h.params, h.bar, h.protection, rfl, rfl, rfl⟩

theorem State.SameTranslation.withOutput (h : x.SameTranslation o) {p : State} (hp : p = o.withOutput p) : x.SameTranslation p := by
  rw [hp]
  exact ⟨h.mode, h.params, h.bar, h.protection⟩

theorem State.raise_withOutput (x o : State) (c : Cond) : (x.withOutput o).raise c = x.withOutput (o.raise c) := by
  cases c <;> rfl

theorem State.outputCounted_withOutput (x o : State) : (x.withOutput o).outputCounted = x.withOutput o.outputCounted := by
  unfold State.outputCounted
  dsimp only
  rw [show (x.withOutput o).reg Reg.wc = o.reg Reg.wc from rfl]
  split <;> rfl

theorem State.SameTranslation.gap (h : x.SameTranslation o) : (x.withOutput o).gap = x.withOutput o.gap := by
  rw [h.view.gap, o.gap_frame]
  rfl

theorem State.SameTranslation.outputWord (h : x.SameTranslation o) (v : Word) :
    (x.withOutput o).outputWord v = x.withOutput (o.outputWord v) := by
  by_cases hstop : (o.params.wcStopsOutput && decide (o.reg Reg.wc = 0)) = true
  · have hstop' : ((x.withOutput o).params.wcStopsOutput && decide ((x.withOutput o).reg Reg.wc = 0)) = true :=
      h.params.symm ▸ hstop
    rw [State.outputWord, if_pos hstop', State.outputWord, if_pos hstop]
  · have hgo : o.params.wcStopsOutput = false ∨ o.reg Reg.wc ≠ 0 := by
      simpa [← Bool.not_eq_true, ← not_and_or] using hstop
    have hgo' : (x.withOutput o).params.wcStopsOutput = false ∨ (x.withOutput o).reg Reg.wc ≠ 0 := h.params.symm ▸ hgo
    cases hw : o.memWrite (o.reg Reg.wp) v with
    | ok t =>
      have ht : (x.withOutput o).memWrite ((x.withOutput o).reg Reg.wp) v = .ok (x.withOutput t) := by
        refine (h.view.memWrite hw).trans (congrArg Except.ok ?_)
        rw [State.memWrite_frame hw]
        rfl
      rw [State.outputWord_of_ok hgo hw, State.outputWord_of_ok hgo' ht, State.outputCounted_withOutput]
    | error c =>
      have ht : (x.withOutput o).memWrite ((x.withOutput o).reg Reg.wp) v = .error c :=
        State.memWrite_eq_error.mpr ((h.view.physical _).trans (State.memWrite_eq_error.mp hw))
      rw [State.outputWord_of_error hgo hw, State.outputWord_of_error hgo' ht, State.raise_withOutput, State.outputCounted_withOutput]

end

/-- What a word of output changes. -/
theorem State.outputWord_frame (s : State) (v : Word) : s.outputWord v = s.withOutput (s.outputWord v) :=
  State.SameTranslation.outputWord (x := s) (o := s) ⟨rfl, rfl, rfl, rfl⟩ v

theorem State.outputWord_gap_frame (s : State) (v : Word) : (s.outputWord v).gap = s.withOutput (s.outputWord v).gap := by
  have h := (State.SameTranslation.withOutput (x := s) ⟨rfl, rfl, rfl, rfl⟩ (s.outputWord_frame v)).gap
  exact (congrArg State.gap (s.outputWord_frame v)).trans h

/-- Output does the same whatever the rest of the state is. -/
theorem State.SameTranslation.outputWords {x o : State} (h : x.SameTranslation o) (ws : List Word) :
    (x.withOutput o).outputWords ws = x.withOutput (o.outputWords ws) := by
  induction ws generalizing o with
  | nil => rfl
  | cons v ws ih =>
    rw [State.outputWords, State.outputWords, h.outputWord, (h.withOutput (o.outputWord_frame v)).gap,
      ih (h.withOutput (o.outputWord_gap_frame v))]

/-- What several words of output change. -/
theorem State.outputWords_frame (s : State) (ws : List Word) : s.outputWords ws = s.withOutput (s.outputWords ws) :=
  State.SameTranslation.outputWords (x := s) (o := s) ⟨rfl, rfl, rfl, rfl⟩ ws

/-- `x` with what a unit's output to memory may change taken from `o`, the free values it takes among it. -/
def State.withUnitOutput (x o : State) : State :=
  { x with regs := o.regs, mem := o.mem, icr := o.icr, protFF := o.protFF, raised := o.raised, turns := o.turns, hostSeen := o.hostSeen,
           freeIx := o.freeIx }

/-- The Matrix Multiplier's output to memory changes what output changes, and takes free values. -/
theorem State.mmRoute_frame (s : State) (q : Tuple) :
    (s.mmRoute q).1 = s.withUnitOutput (s.mmRoute q).1 := by
  unfold State.mmRoute
  cases s.mdir.mom with
  | false => rfl
  | true =>
    rw [if_pos rfl, s.outputWords_frame (s.memoryFormat q.words)]
    rfl

/-- The same with free values taken before. -/
theorem State.mmRoute_useFree_frame (s : State) (n : Nat) (q : Tuple) :
    ((s.useFree n).mmRoute q).1 = s.withUnitOutput ((s.useFree n).mmRoute q).1 := by
  have h := (s.useFree n).mmRoute_frame q
  generalize ((s.useFree n).mmRoute q).1 = r at h ⊢
  exact h

theorem State.mmRoute_off {s : State} (h : s.mdir.mom = false) (q : Tuple) : (s.mmRoute q).1 = s := by
  unfold State.mmRoute
  rw [h]
  rfl

theorem State.mmRoute_on {s : State} (h : s.mdir.mom = true) (ha : s.params.arith = .reference) (q : Tuple) :
    (s.mmRoute q).1 = { s.outputWords q.words with freeIx := (s.mmRoute q).1.freeIx } := by
  unfold State.mmRoute State.memoryFormat
  rw [h, ha]
  rfl

theorem State.mmRoute_snd (s : State) (q : Tuple) : (s.mmRoute q).2 = if s.mdir.moc then some q else none := rfl

/-- The Clipping Divider draws what the Matrix Multiplier routes to it. -/
theorem State.apply_mmRoute {s v : State} {c : Command} {q : Tuple} (h : s.mmDraw c = v.mmRoute q) :
    s.apply c = if v.mdir.moc then (v.mmRoute q).1.cdDraw c.cda c.op q else (v.mmRoute q).1 := by
  cases hm : v.mdir.moc with
  | false => rw [State.apply_of_none (by rw [h, State.mmRoute_snd, hm]; rfl), h]; rfl
  | true => rw [State.apply_of_some (q := q) (by rw [h, State.mmRoute_snd, hm]; rfl), h]; rfl

theorem State.outputWords_useFree (s : State) (n : Nat) (ws : List Word) :
    (s.useFree n).outputWords ws = (s.outputWords ws).useFree n := by
  have h : (s.useFree n).outputWords ws = (s.useFree n).withOutput (s.outputWords ws) :=
    State.SameTranslation.outputWords (x := s.useFree n) (o := s) ⟨rfl, rfl, rfl, rfl⟩ ws
  rw [h, s.outputWords_frame ws]
  rfl

theorem State.mmRoute_useFree_on {s : State} {n : Nat} (h : s.mdir.mom = true) (ha : s.params.arith = .reference) (q : Tuple) :
    ((s.useFree n).mmRoute q).1 = { s.outputWords q.words with freeIx := ((s.useFree n).mmRoute q).1.freeIx } := by
  have h := State.mmRoute_on (s := s.useFree n) h ha q
  rw [State.outputWords_useFree] at h
  generalize ((s.useFree n).mmRoute q).1 = r at h ⊢
  exact h

/-! ### A command with data (R531, R537, R538) -/

/-- The product of a point and matrix A (R538). -/
def State.transformed (s : State) : Tuple → Tuple
  | .two x y => s.transform2d x y
  | .four x y z w => s.rowTimesMatrix (.four x y z w) 0

theorem State.is2d_transformed (s : State) (p : Tuple) : (s.transformed p).is2d = p.is2d := by
  cases p <;> rfl

theorem State.words_transformed (s : State) (p : Tuple) (k : Nat) (h : k < (s.transformed p).words.length) :
    (s.transformed p).words[k] = accumulate s.params.arith
      (p.words.mapIdx (fun i d => fmul s.params.arith d (s.mmAt (Fin.ofNat 16 i) (Fin.ofNat 4 k))) ++
        (if p.is2d then [s.mmAt 2 (Fin.ofNat 4 k)] else [])) := by
  cases p with
  | two x y =>
    have hk : k = 0 ∨ k = 1 := by
      have : k < 2 := h
      omega
    obtain rfl | rfl := hk <;> rfl
  | four x y z w =>
    have hk : k = 0 ∨ k = 1 ∨ k = 2 ∨ k = 3 := by
      have : k < 4 := h
      omega
    obtain rfl | rfl | rfl | rfl := hk <;> rfl

section

variable {s : State} {c : Command} {p : Tuple}

theorem State.mmDraw_plain (hd : c.data = some p) (hm : c.mma = false) : s.mmDraw c = (s, some p) := by
  unfold State.mmDraw State.mmDrawData
  rw [hd, hm]
  rfl

theorem State.mmDraw_transformed (hd : c.data = some p) (hm : c.mma = true) (hc : s.mdir.curve = false) :
    s.mmDraw c = s.mmRoute (s.transformed p) := by
  unfold State.mmDraw State.mmDrawData
  rw [hd, hm, hc]
  cases p <;> rfl

theorem State.mmDraw_curve (hd : c.data = some p) (hm : c.mma = true) (hc : s.mdir.curve = true) :
    s.mmDraw c = (s.useFree 4).mmRoute (s.freePoint 0 p) := by
  unfold State.mmDraw State.mmDrawData
  rw [hd, hm, hc]
  rfl

end

/-- Settles O53: with MMA the product goes to memory and on by MOM and MOC, in curve mode a free point in its place. -/
theorem matrixMultiplierTransformsAndRoutes : Obligations.MatrixMultiplierTransformsAndRoutes := by
  rintro s _ op form p mma cda nov dim rfl
  have hplain : mma = false →
      s.apply { op := op, form := form, data := some p, mma := mma, cda := cda, nov := nov, dim := dim } = s.cdDraw cda op p := by
    intro hm
    have hdraw := State.mmDraw_plain (s := s)
      (c := { op := op, form := form, data := some p, mma := mma, cda := cda, nov := nov, dim := dim }) rfl hm
    rw [State.apply_of_some (q := p) (by rw [hdraw]), hdraw]
  refine ⟨hplain, fun _ => rfl, fun hm hc => (hplain hm).trans (by rw [hc]; rfl), fun hm => ?_⟩
  cases hc : s.mdir.curve with
  | false =>
    exact ⟨s.transformed p, (s.mmRoute (s.transformed p)).1, s.is2d_transformed p, fun _ => s.words_transformed p, s.mmRoute_frame _,
      fun hmom => by rw [State.mmRoute_off hmom], fun hmom ha => State.mmRoute_on hmom ha _,
      State.apply_mmRoute (State.mmDraw_transformed rfl hm hc)⟩
  | true =>
    have hform : (s.freePoint 0 p).is2d = p.is2d := by cases p <;> rfl
    refine ⟨s.freePoint 0 p, ((s.useFree 4).mmRoute (s.freePoint 0 p)).1, hform, nofun, ?_, ?_, ?_, ?_⟩
    · exact s.mmRoute_useFree_frame 4 (s.freePoint 0 p)
    · intro hmom
      rw [State.mmRoute_off (s := s.useFree 4) hmom]
      rfl
    · intro hmom ha
      rw [State.mmRoute_useFree_on hmom ha]
    · rw [State.apply_mmRoute (State.mmDraw_curve (p := p) rfl hm hc)]
      rfl

end Sys2Proof.Machine
end

section
/-!
What a dataless command makes of the matrices (R540 to R543): the curves, and NEWCRV.
-/

namespace Sys2Proof.Machine

section

variable (s : State) (a b : DevAddr)

/-- An element with Q times the one of row `b` added (R541, R542). -/
def State.sumWithRow (j : Fin 4) : Word := accumulate s.params.arith [s.mmAt a j, fmul s.params.arith s.mdir.q (s.mmAt b j)]

theorem State.mmStep_frame (j : Fin 4) : s.mmStep a b j = { s with mm := (s.mmStep a b j).mm } := rfl

theorem State.mmAt_mmStep (c : DevAddr) (j k : Fin 4) :
    (s.mmStep a b j).mmAt c k = if c = a ∧ k = j then s.sumWithRow a b j else s.mmAt c k :=
  s.mmAt_setMm a c j k _

theorem State.mmStepRow_frame : s.mmStepRow a b = { s with mm := (s.mmStepRow a b).mm } := by
  rw [State.mmStepRow_eq, State.mmStep_frame _ a b 3, State.mmStep_frame _ a b 2, State.mmStep_frame _ a b 1, State.mmStep_frame s a b 0]

variable {a b}

theorem State.sumWithRow_mmStep (h : b ≠ a) {i j : Fin 4} (hj : j ≠ i) : (s.mmStep a b i).sumWithRow a b j = s.sumWithRow a b j := by
  rw [State.sumWithRow, State.mmAt_mmStep, State.mmAt_mmStep, if_neg (fun hc => hj hc.2), if_neg (fun hc => h hc.1)]
  rfl

/-- A row with Q times another added to it: the other rows stay. -/
theorem State.mmAt_mmStepRow (h : b ≠ a) (c : DevAddr) (k : Fin 4) :
    (s.mmStepRow a b).mmAt c k = if c = a then s.sumWithRow a b k else s.mmAt c k := by
  simp only [State.mmStepRow_eq, State.mmAt_mmStep]
  by_cases hc : c = a
  · fin_cases k <;> simp [hc, State.sumWithRow_mmStep, h]
  · simp [hc]

end

@[simp] theorem State.params_mmStepRow (s : State) (a b : DevAddr) : (s.mmStepRow a b).params = s.params :=
  (congrArg State.params (s.mmStepRow_frame a b) :)

@[simp] theorem State.mdir_mmStepRow (s : State) (a b : DevAddr) : (s.mmStepRow a b).mdir = s.mdir :=
  (congrArg State.mdir (s.mmStepRow_frame a b) :)

theorem State.mmStepRow_frame_of {s t : State} (h : t = { s with mm := t.mm }) (a b : DevAddr) :
    t.mmStepRow a b = { s with mm := (t.mmStepRow a b).mm } := by
  refine (t.mmStepRow_frame a b).trans ?_
  generalize (t.mmStepRow a b).mm = m
  rw [h]

/-! ### The 3D curve (R541) -/

theorem State.curveRows_frame (s : State) : s.curveRows = { s with mm := s.curveRows.mm } :=
  State.mmStepRow_frame_of (State.mmStepRow_frame_of (s.mmStepRow_frame 0 1) 1 2) 2 3

/-- Each row takes the one below as it was. -/
theorem State.mmAt_curveRows (s : State) (a : DevAddr) (j : Fin 4) :
    s.curveRows.mmAt a j = if a.val < 3 then s.sumWithRow a (a + 1) j else s.mmAt a j := by
  simp only [State.curveRows, State.mmAt_mmStepRow _ (show (1 : DevAddr) ≠ 0 by decide), State.sumWithRow, State.params_mmStepRow,
    State.mmAt_mmStepRow _ (show (2 : DevAddr) ≠ 1 by decide), State.mmAt_mmStepRow _ (show (3 : DevAddr) ≠ 2 by decide),
    State.mdir_mmStepRow]
  fin_cases a <;> simp

/-! ### NEWCRV (R542) -/

theorem State.curvePass_frame_of {s t : State} (h : t = { s with mm := t.mm }) (m : Nat) :
    t.curvePass m = { s with mm := (t.curvePass m).mm } :=
  State.mmStepRow_frame_of (State.mmStepRow_frame_of (State.mmStepRow_frame_of (State.mmStepRow_frame_of h _ _) _ _) _ _) _ _

theorem State.curvePass_eq (s : State) (m : Nat) : s.curvePass m =
    (((s.mmStepRow (rowOf m 0) (rowOf (m + 1) 0)).mmStepRow (rowOf m 1) (rowOf (m + 1) 1)).mmStepRow
      (rowOf m 2) (rowOf (m + 1) 2)).mmStepRow (rowOf m 3) (rowOf (m + 1) 3) := rfl

@[simp] theorem State.params_curvePass (s : State) (m : Nat) : (s.curvePass m).params = s.params := by simp [State.curvePass_eq]

@[simp] theorem State.mdir_curvePass (s : State) (m : Nat) : (s.curvePass m).mdir = s.mdir := by simp [State.curvePass_eq]

/-- A pass adds Q times the next matrix to one matrix. -/
theorem State.mmAt_curvePass (s : State) {m : Nat} (hm : m < 3) (a : DevAddr) (j : Fin 4) :
    (s.curvePass m).mmAt a j = if a.val / 4 = m then s.sumWithRow a (a + 4) j else s.mmAt a j := by
  obtain rfl | rfl | rfl : m = 0 ∨ m = 1 ∨ m = 2 := by omega
  all_goals
    simp only [State.curvePass_eq, rowOf, Nat.reduceMul, Nat.reduceAdd, Fin.reduceOfNat, State.mmAt_mmStepRow, ne_eq, Fin.reduceEq,
      not_false_eq_true, State.sumWithRow, State.params_mmStepRow, State.mdir_mmStepRow]
    fin_cases a <;> simp

theorem State.newCurve_frame (s : State) : s.newCurve = { s with mm := s.newCurve.mm } := by
  rw [State.newCurve_eq]
  exact State.curvePass_frame_of (State.curvePass_frame_of (State.curvePass_frame_of (t := s) rfl 0) 1) 2

/-- Each matrix takes the next one as it was. -/
theorem State.mmAt_newCurve (s : State) (a : DevAddr) (j : Fin 4) :
    s.newCurve.mmAt a j = if a.val < 12 then s.sumWithRow a (a + 4) j else s.mmAt a j := by
  simp only [State.newCurve_eq, State.mmAt_curvePass _ (show 2 < 3 by decide), State.mmAt_curvePass _ (show 1 < 3 by decide),
    State.mmAt_curvePass _ (show 0 < 3 by decide), State.sumWithRow, State.params_curvePass, State.mdir_curvePass]
  fin_cases a <;> simp

/-! ### The 2D curve (R540) -/

theorem State.curve2d_frame (s : State) (op : DrawOp) : (s.curve2d op).1 = { s with mm := (s.curve2d op).1.mm } := by
  by_cases hop : op = .setPoint
  · subst hop
    rfl
  · rw [State.curve2d_moves hop]
    rfl

/-- [x, y] after a step: a set point leaves it. -/
def State.curvePosition (s : State) (op : DrawOp) (j : Fin 4) : Word := if op = .setPoint then s.mmAt 3 j else s.curveEntry j

theorem State.mmAt_curve2d (s : State) (op : DrawOp) (a : DevAddr) (j : Fin 4) :
    (s.curve2d op).1.mmAt a j = if a = 3 ∧ j.val < 2 then s.curvePosition op j else s.mmAt a j := by
  by_cases hop : op = .setPoint
  · subst hop
    exact (ite_eq_right_iff.mpr fun h => by rw [h.1]; rfl).symm
  · rw [State.curve2d_moves hop, State.curveStep, State.mmAt_setMmRow_two, State.curvePosition, if_neg hop]

theorem State.curve2d_snd (s : State) (op : DrawOp) : (s.curve2d op).2 =
    .two (accumulate s.params.arith [s.curvePosition op 0, s.mmAt 2 0])
      (accumulate s.params.arith [s.curvePosition op 1, s.mmAt 2 1]) := by
  by_cases hop : op = .setPoint
  · subst hop
    rfl
  · have hrow (j : Fin 4) : s.curveStep.mmAt 2 j = s.mmAt 2 j := by
      rw [State.curveStep, State.mmAt_setMmRow_two, if_neg (fun h => absurd h.1 (by decide))]
    rw [State.curve2d_moves hop, hrow, hrow, State.curvePosition, State.curvePosition, if_neg hop, if_neg hop]

/-- The routes that MOM and MOC of `s` say, of a state `v` that has other matrices. -/
theorem State.mmRoute_of_matrices {s v : State} (hv : v = { s with mm := v.mm }) (q : Tuple) :
    (v.mmRoute q).1 = v.withUnitOutput (v.mmRoute q).1 ∧ (s.mdir.mom = false → (v.mmRoute q).1 = v) ∧
      (s.mdir.mom = true → s.params.arith = .reference →
        (v.mmRoute q).1 = { v.outputWords q.words with freeIx := (v.mmRoute q).1.freeIx }) := by
  have hmdir : v.mdir = s.mdir := (congrArg State.mdir hv :)
  have hparams : v.params = s.params := (congrArg State.params hv :)
  rw [← hmdir, ← hparams]
  exact ⟨v.mmRoute_frame q, fun h => State.mmRoute_off h q, fun h ha => State.mmRoute_on h ha q⟩

theorem State.apply_of_idle {s : State} {c : Command} (hd : c.data = none) (h : (c.mma && s.mdir.curve) = false) : s.apply c = s := by
  have hdraw : s.mmDraw c = (s, none) := by
    unfold State.mmDraw
    rw [hd]
    exact State.mmDrawDataless_idle h
  rw [State.apply_of_none (by rw [hdraw]), hdraw]

section

variable {s : State} {op : DrawOp} {form : Form} {cda nov : Bool} {dim : Dim}

/-- The command without data of one operation in curve mode. -/
def curveCommand (op : DrawOp) (form : Form) (cda nov : Bool) (dim : Dim) : Command :=
  { op := op, form := form, data := none, mma := true, cda := cda, nov := nov, dim := dim }

theorem State.mmDraw_curveCommand : s.mmDraw (curveCommand op form cda nov dim) = s.mmDrawDataless true dim op := rfl

theorem State.apply_box2d (hc : s.mdir.curve = true) (hd : dim.is2d = true) :
    s.apply (curveCommand .box form cda nov dim) = s.freeMatrices := by
  have hdraw : s.mmDraw (curveCommand .box form cda nov dim) = (s.freeMatrices, none) := State.mmDrawDataless_box2d hc hd
  rw [State.apply_of_none (by rw [hdraw]), hdraw]

theorem State.apply_box3d (hc : s.mdir.curve = true) (hd : dim.is2d = false) :
    s.apply (curveCommand .box form cda nov dim) = s.newCurve := by
  have hdraw : s.mmDraw (curveCommand .box form cda nov dim) = (s.newCurve, none) := State.mmDrawDataless_box3d hc hd
  rw [State.apply_of_none (by rw [hdraw]), hdraw]

theorem State.apply_curve {v : State} {q : Tuple} (hv : v = { s with mm := v.mm })
    (h : s.mmDrawDataless true dim op = v.mmRoute q) : s.apply (curveCommand op form cda nov dim) =
      if s.mdir.moc then (v.mmRoute q).1.cdDraw cda op q else (v.mmRoute q).1 := by
  rw [State.apply_mmRoute (c := curveCommand op form cda nov dim) h, show v.mdir = s.mdir from (congrArg State.mdir hv :)]
  rfl

end

/-- Settles O54: a curve step or NEWCRV changes the matrices alone, and its point is routed as a product is. -/
theorem curvesIterateTheMatrices : Obligations.CurvesIterateTheMatrices := by
  rintro s t op form mma cda nov dim _ _ ht rfl rfl
  refine ⟨fun h => ht.trans (State.apply_of_idle rfl ?_), ?_, ?_⟩
  · obtain h | h := h
    · exact congrArg (· && _) h
    · exact (congrArg (mma && ·) h).trans (Bool.and_false mma)
  · rintro rfl hc rfl
    refine ⟨fun hd => ?_, fun hd => ?_⟩
    · obtain rfl := ht.trans (State.apply_box2d hc hd)
      rfl
    · obtain rfl := ht.trans (State.apply_box3d hc hd)
      exact ⟨s.newCurve_frame, s.mmAt_newCurve⟩
  · rintro rfl hc hop
    cases hd : dim.is2d with
    | true =>
      have hframe := s.curve2d_frame op
      obtain ⟨hr, hoff, hon⟩ := State.mmRoute_of_matrices hframe (s.curve2d op).2
      exact ⟨_, _, _, hframe, fun _ => ⟨s.curvePosition op, fun _ => rfl, s.mmAt_curve2d op, s.curve2d_snd op⟩, nofun, hr, hoff, hon,
        ht.trans (State.apply_curve hframe (State.mmDrawDataless_2d hc hd hop))⟩
    | false =>
      have hframe := s.curveRows_frame
      obtain ⟨hr, hoff, hon⟩ := State.mmRoute_of_matrices hframe (s.curveRows.mmRow false 0)
      exact ⟨_, _, _, hframe, nofun, fun _ => ⟨s.mmAt_curveRows, rfl⟩, hr, hoff, hon,
        ht.trans (State.apply_curve hframe (State.mmDrawDataless_3d hc hd hop))⟩

end Sys2Proof.Machine
end

section
/-!
A box in the Clipping Divider (R556): INSTANCE clipped to the window, its image, and the window that shows it.
-/

namespace Sys2Proof.Machine

theorem State.mapAxis_reference {s : State} (ha : s.params.arith = .reference) {w0 w1 : Word} (hw : w0 ≠ w1) (k : Nat) (v v0 v1 : Int) :
    s.mapAxis k v w0.toInt w1.toInt v0 v1 =
      BitVec.ofInt 24 (v0 + Int.fdiv ((v - w0.toInt) * (v1 - v0)) (w1.toInt - w0.toInt)) := by
  rw [State.mapAxis, if_neg (fun h => hw (BitVec.eq_of_toInt_eq h)), State.rounded, ha]
  rfl

theorem State.boxAxis_reference {s : State} (ha : s.params.arith = .reference) {i0 i1 : Word} {m0 m1 : Int} (hi : i0 ≠ i1) (hm : m0 ≠ m1)
    (k : Nat) (v : Int) :
    s.boxAxis k v i0.toInt i1.toInt m0 m1 =
      BitVec.ofInt 24 (m0 + Int.fdiv ((v - i0.toInt) * (m1 - m0)) (i1.toInt - i0.toInt)) := by
  rw [State.boxAxis, if_neg (fun h => h.elim (fun h => hi (BitVec.eq_of_toInt_eq h)) hm), State.rounded, ha]
  rfl

/-- A falling pair falls. -/
theorem backwardPair_falls (a b : Word) : (backwardPair a b).1.toInt > (backwardPair a b).2.toInt := by
  unfold backwardPair
  split
  next h => exact h
  next h =>
    split
    next h' => exact h'
    next h' => decide

/-- Some backward window is backward in X or in Y. -/
theorem State.backwardWindow_backward (s : State) (k : Nat) :
    (s.backwardWindow k).c0.toInt > (s.backwardWindow k).c2.toInt ∨ (s.backwardWindow k).c1.toInt > (s.backwardWindow k).c3.toInt := by
  unfold State.backwardWindow
  dsimp only
  split
  · exact .inr (backwardPair_falls _ _)
  · exact .inl (backwardPair_falls _ _)

/-! ### The two points of a drawing command (R550, R552, R566) -/

/-- Bit 0 of a coordinate is regenerated. -/
theorem cdIn_eq_ofInt (v : Word) : cdIn v = BitVec.ofInt 24 (cdInt v) := rfl

theorem cdInt_cdIn (v : Word) : cdInt (cdIn v) = cdInt v := by
  have h : (cdIn v).setWidth 23 = v.setWidth 23 := by
    refine BitVec.eq_of_getLsbD_eq fun i hi => ?_
    rw [cdIn, BitVec.getLsbD_setWidth, BitVec.getLsbD_signExtend]
    simp [hi, show i < 24 by omega]
  exact congrArg BitVec.toInt h

/-- The new point of a command in the Clipping Divider. -/
def ClipDiv.newTuple (c : ClipDiv) (q : Tuple) : Tuple := (c.graphPoint q).cdIn

theorem ClipDiv.cdPoint_newTuple (c : ClipDiv) (q : Tuple) : cdPoint (c.newTuple q) = c.newPoint q := by
  cases q <;> simp [ClipDiv.newTuple, ClipDiv.graphPoint, Tuple.cdIn, cdPoint, cdInt_cdIn, ClipDiv.newPoint, newCoordinate]

theorem ClipDiv.is2d_newTuple (c : ClipDiv) (q : Tuple) : (c.newTuple q).is2d = q.is2d := by
  cases q <;> rfl

theorem ClipDiv.cdPoint_savePoint (c : ClipDiv) (n : Tuple) : cdPoint (c.savePoint n) = c.oldPoint n.is2d := by
  cases n <;> rfl

section

variable {s : State} {op : DrawOp} {form : Form} {q : Tuple} {nov : Bool} {dim : Dim}

/-- A command that the Matrix Multiplier passes on, with the Clipping Divider active. -/
theorem State.apply_divider : s.apply { op := op, form := form, data := some q, mma := false, cda := true, nov := nov, dim := dim } =
    s.cdDraw true op q := by
  have hdraw := State.mmDraw_plain (s := s)
    (c := { op := op, form := form, data := some q, mma := false, cda := true, nov := nov, dim := dim }) rfl rfl
  rw [State.apply_of_some (q := q) (by rw [hdraw]), hdraw]

end

/-! ### The box -/

theorem State.boxOp_frame (s : State) (m n : Tuple) : s.boxOp m n =
    { s with cd := { s.cd with wind := (s.boxOp m n).cd.wind, view := (s.boxOp m n).cd.view }, freeIx := (s.boxOp m n).freeIx } := rfl

theorem State.boxOp_2d (s : State) (m : Tuple) {n : Tuple} (h : n.is2d = true) :
    ((s.boxOp m n).cd.wind, (s.boxOp m n).cd.view) = s.box2d (cdPoint m) (cdPoint n) := by
  cases n with
  | two x y => rfl
  | four x y z w => cases h

/-- The image of a clipped INSTANCE under the present window and viewport. -/
def State.boxView (s : State) (cl cb cr ct : Int) : Quad :=
  { c0 := s.mapAxis 0 cl s.cd.wind.c0.toInt s.cd.wind.c2.toInt s.cd.view.c0.toInt s.cd.view.c2.toInt
    c1 := s.mapAxis 1 cb s.cd.wind.c1.toInt s.cd.wind.c3.toInt s.cd.view.c1.toInt s.cd.view.c3.toInt
    c2 := s.mapAxis 2 cr s.cd.wind.c0.toInt s.cd.wind.c2.toInt s.cd.view.c0.toInt s.cd.view.c2.toInt
    c3 := s.mapAxis 3 ct s.cd.wind.c1.toInt s.cd.wind.c3.toInt s.cd.view.c1.toInt s.cd.view.c3.toInt }

/-- The window that shows a clipped INSTANCE of the master from `a` to `b`. -/
def State.boxWindow (s : State) (a b : CdPoint) (cl cb cr ct : Int) : Quad :=
  if cl > cr ∨ cb > ct then s.backwardWindow 4
  else
    { c0 := s.boxAxis 4 cl s.cd.inst.c0.toInt s.cd.inst.c2.toInt a.x b.x
      c1 := s.boxAxis 5 cb s.cd.inst.c1.toInt s.cd.inst.c3.toInt a.y b.y
      c2 := s.boxAxis 6 cr s.cd.inst.c0.toInt s.cd.inst.c2.toInt a.x b.x
      c3 := s.boxAxis 7 ct s.cd.inst.c1.toInt s.cd.inst.c3.toInt a.y b.y }

theorem State.box2d_eq (s : State) (a b : CdPoint) {cl cb cr ct : Int} (hl : cl = max s.cd.inst.c0.toInt s.cd.wind.c0.toInt)
    (hb : cb = max s.cd.inst.c1.toInt s.cd.wind.c1.toInt) (hr : cr = min s.cd.inst.c2.toInt s.cd.wind.c2.toInt)
    (ht : ct = min s.cd.inst.c3.toInt s.cd.wind.c3.toInt) :
    s.box2d a b = (s.boxWindow a b cl cb cr ct, s.boxView cl cb cr ct) := by
  rw [hl, hb, hr, ht]
  rfl

/-- Settles O60: each edge is mapped by itself, and an empty clipped INSTANCE gives a backward window. -/
theorem boxSetsWindowAndViewport : Obligations.BoxSetsWindowAndViewport := by
  intro s t form q nov dim ht
  have hbox : t = s.boxOp (s.cd.savePoint (s.cd.newTuple q)) (s.cd.newTuple q) := ht.trans State.apply_divider
  refine ⟨by rw [hbox]; exact s.boxOp_frame _ _, ?_⟩
  rintro hq ha _ _ _ _ _ cl cb cr ct rfl rfl rfl rfl rfl hcl hcb hcr hct
  have h2d : (s.cd.newTuple q).is2d = true := (s.cd.is2d_newTuple q).trans hq
  have hpair := s.boxOp_2d (s.cd.savePoint (s.cd.newTuple q)) h2d
  rw [← hbox, s.cd.cdPoint_savePoint, s.cd.cdPoint_newTuple, h2d, s.box2d_eq _ _ hcl hcb hcr hct] at hpair
  obtain ⟨hwind, hview⟩ := Prod.mk.inj hpair
  rw [hwind, hview]
  refine ⟨fun hw => ⟨State.mapAxis_reference ha hw .., State.mapAxis_reference ha hw ..⟩,
    fun hw => ⟨State.mapAxis_reference ha hw .., State.mapAxis_reference ha hw ..⟩, fun hempty => ?_, fun hx hy => ?_⟩
  · rw [State.boxWindow, if_pos hempty]
    exact s.backwardWindow_backward 4
  · rw [State.boxWindow, if_neg (by omega)]
    exact ⟨fun hi hm => ⟨State.boxAxis_reference ha hi hm .., State.boxAxis_reference ha hi hm ..⟩,
      fun hi hm => ⟨State.boxAxis_reference ha hi hm .., State.boxAxis_reference ha hi hm ..⟩⟩

end Sys2Proof.Machine
end

section
/-!
When a line is seen (R553, R554, R557): the clipped span exists just when some point of the line lies in the window or the pyramid.
-/

namespace Sys2Proof.Machine

/-! ### Spans lie in their segment -/

/-- A span lies between the ends of its segment. -/
def Span.Within (p : Span) : Prop := p.Valid ∧ 0 ≤ p.ln ∧ p.hn ≤ p.hd

theorem Span.within_of_cut {f0 f1 : Int} {p q : Span} (hp : p.Within) (h : Span.cut f0 f1 p = some q) : q.Within := by
  obtain ⟨⟨hl, hh⟩, h0, h1⟩ := hp
  unfold Span.cut at h
  split_ifs at h
  all_goals
    cases h
    simp only [Span.Within, Span.Valid]
    omega

theorem Span.within_of_foldl_cut (fs : List (Int × Int)) {o : Option Span} (ho : ∀ p, o = some p → p.Within) {q : Span}
    (h : fs.foldl (fun acc f => acc.bind (Span.cut f.1 f.2)) o = some q) : q.Within := by
  induction fs generalizing o with
  | nil => exact ho q h
  | cons f fs ih =>
    refine ih (fun p hp => ?_) h
    obtain ⟨r, hr, hcut⟩ := Option.bind_eq_some_iff.mp hp
    exact Span.within_of_cut (ho r hr) hcut

theorem clipSpan_within {fs : List (Int × Int)} {v : Span} (h : clipSpan fs = some v) : v.Within ∧ v.ln * v.hd ≤ v.hn * v.ld := by
  obtain ⟨q, hq, hlo⟩ := Option.bind_eq_some_iff.mp h
  split at hlo
  case isFalse => cases hlo
  case isTrue hle =>
    cases hlo
    refine ⟨Span.within_of_foldl_cut fs (fun p hp => ?_) hq, hle⟩
    cases hp
    exact ⟨⟨one_pos, one_pos⟩, le_refl 0, le_refl 1⟩

/-- A segment has a visible part if some point of it is inside. -/
theorem isSome_clipSpan (fs : List (Int × Int)) :
    (clipSpan fs).isSome = true ↔ ∃ n d : Int, 0 ≤ n ∧ n ≤ d ∧ 0 < d ∧ ∀ f ∈ fs, notNegativeAt n d f := by
  constructor
  · intro h
    obtain ⟨v, hv⟩ := Option.isSome_iff_exists.mp h
    obtain ⟨⟨⟨hl, hh⟩, h0, h1⟩, hle⟩ := clipSpan_within hv
    have hend : v.ln ≤ v.ld := by
      refine le_of_mul_le_mul_right (hle.trans ?_) hh
      rw [mul_comm v.ld]
      exact mul_le_mul_of_nonneg_right h1 hl.le
    exact ⟨v.ln, v.ld, h0, hend, hl,
      (clippingKeepsExactlyTheInside fs v.ln v.ld h0 hend hl).mpr ⟨v, hv, hl, hh, le_refl _, hle⟩⟩
  · rintro ⟨n, d, h0, hnd, hd, h⟩
    obtain ⟨v, hv, -⟩ := (clippingKeepsExactlyTheInside fs n d h0 hnd hd).mp h
    exact Option.isSome_iff_exists.mpr ⟨v, hv⟩

/-! ### The window (R553) -/

theorem notNegativeAt_sub (n d p q c : Int) : notNegativeAt n d (p - c, q - c) ↔ c * d ≤ p * (d - n) + q * n := by
  rw [notNegativeAt, show (p - c) * (d - n) + (q - c) * n = p * (d - n) + q * n - c * d by ring, sub_nonneg]

theorem notNegativeAt_from (n d p q c : Int) : notNegativeAt n d (c - p, c - q) ↔ p * (d - n) + q * n ≤ c * d := by
  rw [notNegativeAt, show (c - p) * (d - n) + (c - q) * n = c * d - (p * (d - n) + q * n) by ring, sub_nonneg]

theorem isSome_clip2d (w : Quad) (p q : CdPoint) : (clip2d w p q).isSome = true ↔ meetsWindow w p.x p.y q.x q.y := by
  simp only [clip2d, isSome_clipSpan, List.forall_mem_cons, List.not_mem_nil, false_implies, implies_true, and_true, notNegativeAt_sub,
    notNegativeAt_from, meetsWindow]

/-- No line meets a backward window. -/
theorem not_meetsWindow_of_backward {w : Quad} (h : backward w = true) (x0 y0 x1 y1 : Int) : ¬ meetsWindow w x0 y0 x1 y1 := by
  rintro ⟨n, d, -, -, hd, hl, hr, hb, ht⟩
  obtain h | h : w.c0.toInt > w.c2.toInt ∨ w.c1.toInt > w.c3.toInt := by simpa [backward] using h
  · exact absurd (le_of_mul_le_mul_right (hl.trans hr) hd) (not_le.mpr h)
  · exact absurd (le_of_mul_le_mul_right (hb.trans ht) hd) (not_le.mpr h)

/-- The visible part of a line in 2D. -/
def visible2d (w : Quad) (p q : CdPoint) : Option Span := if backward w then none else clip2d w p q

theorem isSome_visible2d (w : Quad) (p q : CdPoint) : (visible2d w p q).isSome = true ↔ meetsWindow w p.x p.y q.x q.y := by
  unfold visible2d
  split
  next h => exact iff_of_false (by decide) (not_meetsWindow_of_backward h _ _ _ _)
  next h => exact isSome_clip2d w p q

/-! ### The pyramids (R554, R557) -/

theorem notNegativeAt_pair (n d x0 x1 z0 z1 : Int) : (notNegativeAt n d (z0 - x0, z1 - x1) ∧ notNegativeAt n d (z0 + x0, z1 + x1)) ↔
    |x0 * (d - n) + x1 * n| ≤ z0 * (d - n) + z1 * n := by
  rw [abs_le, notNegativeAt, notNegativeAt, show (z0 - x0) * (d - n) + (z1 - x1) * n =
    z0 * (d - n) + z1 * n - (x0 * (d - n) + x1 * n) by ring, show (z0 + x0) * (d - n) + (z1 + x1) * n =
    z0 * (d - n) + z1 * n + (x0 * (d - n) + x1 * n) by ring]
  constructor <;> rintro ⟨h1, h2⟩ <;> constructor <;> linarith

theorem isSome_clip3d (p q : CdPoint) : (clip3d p q).isSome = true ↔ meetsPyramid 1 p q := by
  simp only [clip3d, isSome_clipSpan, List.forall_mem_cons, List.not_mem_nil, false_implies, implies_true, and_true, meetsPyramid, one_mul,
    ← notNegativeAt_pair, and_assoc]

theorem isSome_clip3dNegative (p q : CdPoint) : (clip3dNegative p q).isSome = true ↔ meetsPyramid (-1) p q := by
  have hneg (z0 z1 n d : Int) : -1 * (z0 * (d - n) + z1 * n) = -z0 * (d - n) + -z1 * n := by ring
  simp only [clip3dNegative, isSome_clipSpan, List.forall_mem_cons, List.not_mem_nil, false_implies, implies_true, and_true, meetsPyramid,
    hneg, ← notNegativeAt_pair, and_assoc]

/-! ### A line drawn the other way -/

theorem meetsWindow_symm {w : Quad} {x0 y0 x1 y1 : Int} (h : meetsWindow w x0 y0 x1 y1) : meetsWindow w x1 y1 x0 y0 := by
  obtain ⟨n, d, h0, hnd, hd, hw⟩ := h
  refine ⟨d - n, d, sub_nonneg.mpr hnd, sub_le_self d h0, hd, ?_⟩
  rwa [show d - (d - n) = n by ring, add_comm (x1 * n), add_comm (y1 * n)]

theorem meetsPyramid_symm {k : Int} {p q : CdPoint} (h : meetsPyramid k p q) : meetsPyramid k q p := by
  obtain ⟨n, d, h0, hnd, hd, hw⟩ := h
  refine ⟨d - n, d, sub_nonneg.mpr hnd, sub_le_self d h0, hd, ?_⟩
  rwa [show d - (d - n) = n by ring, add_comm (q.x * n), add_comm (q.y * n), add_comm (q.zx * n), add_comm (q.zy * n)]

/-- What is seen of a line (R553, R554, R557). -/
def ClipDiv.sees (c : ClipDiv) (twoD : Bool) (p q : CdPoint) : Prop :=
  if twoD then meetsWindow c.wind p.x p.y q.x q.y else meetsPyramid 1 p q ∨ (c.cdir.curve = true ∧ meetsPyramid (-1) p q)

theorem ClipDiv.sees_comm (c : ClipDiv) (twoD : Bool) (p q : CdPoint) : c.sees twoD p q ↔ c.sees twoD q p := by
  cases twoD
  · exact or_congr ⟨meetsPyramid_symm, meetsPyramid_symm⟩ (and_congr_right fun _ => ⟨meetsPyramid_symm, meetsPyramid_symm⟩)
  · exact ⟨meetsWindow_symm, meetsWindow_symm⟩

end Sys2Proof.Machine
end

section
/-!
What the Clipping Divider changes when it shows something (R553 to R557, R563, R570, R582).
-/

namespace Sys2Proof.Machine

/-! ### Output to memory and to the scope -/

/-- No output to memory (R555). -/
def ClipDiv.Silent (c : ClipDiv) : Prop := c.cdir.stom = false ∧ c.cdir.ptom = false ∧ c.cdir.ntom = false

theorem State.cdMemOut_frame (s : State) (d : Bool) (e p : Point3) : s.cdMemOut d e p = s.withOutput (s.cdMemOut d e p) := by
  unfold State.cdMemOut
  split
  · exact s.outputWords_frame _
  · rfl

theorem State.cdMemOut_silent {s : State} (h : s.cd.Silent) (d : Bool) (e p : Point3) : s.cdMemOut d e p = s := by
  obtain ⟨hs, hp, hn⟩ := h
  rw [State.cdMemOut, hs, hp, hn]
  rfl

theorem State.emitFrom_frame (s : State) (d : Bool) (e0 e1 : Point3) :
    s.emitFrom d e0 e1 = { s with scope := (s.emitFrom d e0 e1).scope } := by
  unfold State.emitFrom
  dsimp only
  split <;> rfl

/-- A visible part after its output to memory: the scope violation, and the commands to the scope. -/
theorem State.showPart_frame (s : State) (d : Bool) (e0 e1 page : Point3) : s.showPart d e0 e1 page =
    { (s.setHit.cdMemOut d e1 page).raiseIf (s.cd.cdir.stos && s.cd.violation) .scopeViolation with
      scope := (s.showPart d e0 e1 page).scope } := by
  have hcd : (s.setHit.cdMemOut d e1 page).cd = s.cd := (congrArg State.cd (s.setHit.cdMemOut_frame d e1 page) :)
  unfold State.showPart
  dsimp only
  rw [hcd]
  cases s.cd.cdir.stos with
  | false => rfl
  | true =>
    rw [if_pos rfl, State.emitLine_eq, hcd, Bool.true_and]
    exact State.emitFrom_frame ..

/-! ### What showing changes -/

/-- `x` with what showing something may change taken from `o`. -/
def State.withShown (x o : State) : State :=
  { x with regs := o.regs, mem := o.mem, icr := o.icr, protFF := o.protFF, raised := o.raised, turns := o.turns, hostSeen := o.hostSeen,
           freeIx := o.freeIx, dir := o.dir, scope := o.scope }

/-- `t` comes of `s` by showing something, of which a line was seen just if `seen`. -/
structure State.Shown (s t : State) (seen : Prop) : Prop where
  frame : t = s.withShown t
  hit : bitAt t.dir 21 = true ↔ bitAt s.dir 21 = true ∨ seen
  dir : ∀ k, k ≠ 21 → bitAt t.dir k = bitAt s.dir k
  silent : s.cd.Silent → t = { s with dir := t.dir, scope := t.scope, freeIx := t.freeIx, icr := t.icr, raised := t.raised } ∧
    (∀ k, bitAt t.icr k = true ↔ bitAt s.icr k = true ∨ (k = 6 ∧ seen ∧ s.cd.cdir.stos = true ∧ s.cd.violation = true)) ∧
    (t.raised = true ↔ s.raised = true ∨ (seen ∧ s.cd.cdir.stos = true ∧ s.cd.violation = true))

namespace State.Shown

variable {s t u : State} {seen seen' : Prop}

theorem cd_eq (h : s.Shown t seen) : t.cd = s.cd := (congrArg State.cd h.frame :)

theorem trans (h : s.Shown t seen) (h' : t.Shown u seen') : s.Shown u (seen ∨ seen') where
  frame := by
    refine h'.frame.trans ?_
    rw [h.frame]
    rfl
  hit := by rw [h'.hit, h.hit, or_assoc]
  dir k hk := (h'.dir k hk).trans (h.dir k hk)
  silent hq := by
    obtain ⟨ht, hicr, hraised⟩ := h.silent hq
    obtain ⟨hu, hicr', hraised'⟩ := h'.silent (by rw [h.cd_eq]; exact hq)
    rw [h.cd_eq] at hicr' hraised'
    refine ⟨?_, fun k => ?_, ?_⟩
    · refine hu.trans ?_
      rw [ht]
    · rw [hicr' k, hicr k]
      tauto
    · rw [hraised', hraised]
      tauto

theorem congr (h : s.Shown t seen) (hs : seen ↔ seen') : s.Shown t seen' := by rwa [← propext hs]

/-- Nothing seen: free values may be taken and the beam moved. -/
theorem unseen (h : t = { s with scope := t.scope, freeIx := t.freeIx }) : s.Shown t False := by
  have hdir : t.dir = s.dir := (congrArg State.dir h :)
  have hicr : t.icr = s.icr := (congrArg State.icr h :)
  have hraised : t.raised = s.raised := (congrArg State.raised h :)
  refine ⟨?_, by simp [hdir], fun k _ => by rw [hdir], fun _ => ⟨?_, by simp [hicr], by simp [hraised]⟩⟩
  · rw [h]
    rfl
  · rw [h]

theorem refl (s : State) : s.Shown s False := unseen rfl

theorem useFree (h : s.Shown t seen) (n : Nat) : s.Shown (t.useFree n) seen :=
  (h.trans (unseen (t := t.useFree n) rfl)).congr (or_iff_left id)

end State.Shown

/-- Output to memory. -/
theorem State.shown_cdMemOut (s : State) (d : Bool) (e p : Point3) : s.Shown (s.cdMemOut d e p) False := by
  have hframe := s.cdMemOut_frame d e p
  have hsilent := fun h => State.cdMemOut_silent (s := s) h d e p
  generalize s.cdMemOut d e p = t at hframe hsilent ⊢
  have hdir : t.dir = s.dir := (congrArg State.dir hframe :)
  refine ⟨?_, by simp [hdir], fun k _ => by rw [hdir], fun h => ?_⟩
  · rw [hframe]
    rfl
  · obtain rfl := hsilent h
    exact (State.Shown.refl t).silent h

/-- A visible part. -/
theorem State.shown_showPart (s : State) (d : Bool) (e0 e1 page : Point3) : s.Shown (s.showPart d e0 e1 page) True := by
  have hframe := s.showPart_frame d e0 e1 page
  have hout := s.setHit.cdMemOut_frame d e1 page
  have hsilent := fun h => State.cdMemOut_silent (s := s.setHit) h d e1 page
  generalize s.setHit.cdMemOut d e1 page = o at hframe hout hsilent
  rw [o.raiseIf_frame _ (by decide)] at hframe
  generalize s.showPart d e0 e1 page = t at hframe ⊢
  have hdir : t.dir = setBitAt s.dir 21 true := (congrArg State.dir hframe).trans (congrArg State.dir hout :)
  refine ⟨?_, by simp [hdir], fun k hk => by simp [hdir, hk], fun h => ?_⟩
  · rw [hframe, hout]
    rfl
  · obtain rfl := hsilent h
    have hicr : t.icr = (s.setHit.raiseIf (s.cd.cdir.stos && s.cd.violation) .scopeViolation).icr := (congrArg State.icr hframe :)
    have hraised : t.raised = (s.setHit.raiseIf (s.cd.cdir.stos && s.cd.violation) .scopeViolation).raised :=
      (congrArg State.raised hframe :)
    refine ⟨?_, fun k => ?_, ?_⟩
    · rw [hframe]
      rfl
    · rw [hicr, State.bitAt_raiseIf_icr, Bool.or_eq_true, Bool.and_eq_true, Bool.and_eq_true, decide_eq_true_iff]
      exact or_congr_right ⟨fun ⟨hv, hk⟩ => ⟨hk, trivial, hv⟩, fun ⟨hk, _, hv⟩ => ⟨hv, hk⟩⟩
    · rw [hraised, State.raiseIf_raised, Bool.or_eq_true, Bool.and_eq_true, or_comm, true_and]
      rfl

/-! ### A line (R552 to R557) -/

theorem State.shown_partIfVisible (s : State) (d : Bool) (p q : CdPoint) (v : Option Span) :
    s.Shown (s.partIfVisible d p q v) (v.isSome = true) := by
  cases v with
  | none => exact (State.Shown.refl s).congr (by simp)
  | some v => exact ((s.shown_showPart d _ _ _).useFree 32).congr (by simp)

theorem State.isSome_onePart (s : State) (v w : Option Span) :
    (s.onePart v w).isSome = true ↔ v.isSome = true ∨ w.isSome = true := by
  cases v <;> cases w <;> simp [State.onePart]

theorem State.shown_line3d (s : State) (p q : CdPoint) (v w : Option Span) :
    s.Shown (s.line3d p q v w) (v.isSome = true ∨ w.isSome = true) := by
  unfold State.line3d
  split
  · refine (((State.Shown.refl s).useFree 1).trans (State.shown_partIfVisible ..)).congr ?_
    rw [State.isSome_onePart, false_or]
  · exact (s.shown_partIfVisible false p q v).trans (State.shown_partIfVisible ..)

/-- A line, after the counts. -/
theorem State.shown_line (s : State) (p q : Tuple) :
    s.countsUpdate.Shown (s.line p q) (s.cd.sees p.is2d (cdPoint p) (cdPoint q)) := by
  have hcounts := (State.Shown.refl s.countsUpdate).useFree 2
  cases p with
  | two x y =>
    refine (hcounts.trans (State.shown_partIfVisible _ true _ _ (visible2d s.cd.wind _ _))).congr ?_
    rw [isSome_visible2d, false_or]
    rfl
  | four x y z w =>
    refine (hcounts.trans (State.shown_line3d ..)).congr ?_
    rw [isSome_clip3d, false_or]
    refine or_congr_right ?_
    cases s.cd.cdir.curve with
    | false => simp
    | true => simpa using isSome_clip3dNegative _ _

theorem State.shown_placePoint (s : State) (d : Bool) (scaled page : Point3) : s.Shown (s.placePoint d scaled page) False :=
  ((s.shown_cdMemOut d scaled page).trans (State.Shown.unseen rfl)).congr (or_iff_left id) |>.useFree 16

end Sys2Proof.Machine
end

section
/-!
Drawing commands in the Clipping Divider (R552, R563, R566, R570): SAVE, HIT, and what else changes.
-/

namespace Sys2Proof.Machine

/-! ### SAVE (R552) -/

/-- SAVE with a new point. -/
def ClipDiv.saved (c : ClipDiv) : Tuple → Quad
  | .two x y => c.save.setLo x y
  | .four x y zx zy => { c0 := x, c1 := y, c2 := zx, c3 := zy }

theorem State.setSave_eq (s : State) (n : Tuple) : s.setSave n = { s with cd := { s.cd with save := s.cd.saved n } } := by
  cases n <;> rfl

theorem ClipDiv.saved_newTuple (c : ClipDiv) (q : Tuple) : c.saved (c.newTuple q) =
    if q.is2d then { c.save with c0 := BitVec.ofInt 24 (c.newPoint q).x, c1 := BitVec.ofInt 24 (c.newPoint q).y }
    else ⟨BitVec.ofInt 24 (c.newPoint q).x, BitVec.ofInt 24 (c.newPoint q).y, BitVec.ofInt 24 (c.newPoint q).zx,
      BitVec.ofInt 24 (c.newPoint q).zy⟩ := by
  cases q <;> rfl

/-! ### One command -/

/-- `t` comes of `s` by a drawing command with something shown: everything but the registers of the Clipping Divider. -/
structure State.Drawn (s t : State) (seen : Prop) : Prop where
  hit : bitAt t.dir 21 = true ↔ bitAt s.dir 21 = true ∨ seen
  dir : ∀ k < 24, k ≠ 21 → bitAt t.dir k = bitAt s.dir k
  frame : t = { s with cd := t.cd, dir := t.dir, scope := t.scope, freeIx := t.freeIx, icr := t.icr, regs := t.regs, mem := t.mem,
                       protFF := t.protFF, raised := t.raised, turns := t.turns, hostSeen := t.hostSeen }
  silent : s.cd.Silent →
    t = { s with cd := t.cd, dir := t.dir, scope := t.scope, freeIx := t.freeIx, icr := t.icr, raised := t.raised } ∧
    (∀ k < 24, bitAt t.icr k = true ↔ bitAt s.icr k = true ∨ (k = 6 ∧ seen ∧ s.cd.cdir.stos = true ∧ s.cd.violation = true)) ∧
    (t.raised = true ↔ s.raised = true ∨ (seen ∧ s.cd.cdir.stos = true ∧ s.cd.violation = true))

/-- `s` with another SAVE and other counts. -/
def State.withSave (s : State) (save : Quad) (hitang : Word × Word) : State :=
  { s with cd := { s.cd with save := save, hitang := hitang } }

/-- What is shown between two changes of the registers of the Clipping Divider, of SAVE and the counts before it. -/
theorem State.Shown.drawn {s t u : State} {seen : Prop} {save : Quad} {hitang : Word × Word} {c : ClipDiv}
    (h : (s.withSave save hitang).Shown t seen) (hu : u = { t with cd := c }) : s.Drawn u seen := by
  obtain rfl := hu
  refine ⟨h.hit, fun k _ => h.dir k, ?_, fun hq => ?_⟩
  · rw [h.frame]
    rfl
  · obtain ⟨ht, hicr, hraised⟩ := h.silent hq
    refine ⟨?_, fun k _ => hicr k, hraised⟩
    rw [ht]
    rfl

section

variable (s : State)

theorem State.drawn_setPointOp (n : Tuple) : s.Drawn (s.setPointOp n) False ∧
    (s.setPointOp n).cd = { s.cd with save := s.cd.saved n } := by
  have hshown := (s.setSave n).shown_placePoint n.is2d (s.mapPoint n.is2d 3 (cdPoint n)) (pagePoint (cdPoint n))
  rw [s.setPointOp_eq, s.setSave_eq] at *
  exact ⟨State.Shown.drawn (s := s) (hitang := s.cd.hitang) hshown rfl, hshown.cd_eq⟩

theorem State.drawn_line (m n : Tuple) : s.Drawn (s.line m n) (s.cd.sees m.is2d (cdPoint m) (cdPoint n)) ∧
    (s.line m n).cd = { s.cd with hitang := (s.free 0, s.free 1) } :=
  ⟨State.Shown.drawn (s := s) (save := s.cd.save) (s.shown_line m n) rfl, (s.shown_line m n).cd_eq⟩

/-- A line with the new SAVE after it. -/
theorem State.drawn_line_setSave (m n q : Tuple) :
    s.Drawn ((s.line m n).setSave q) (s.cd.sees m.is2d (cdPoint m) (cdPoint n)) ∧
    ((s.line m n).setSave q).cd = { s.cd with hitang := (s.free 0, s.free 1), save := s.cd.saved q } := by
  refine ⟨State.Shown.drawn (s := s) (save := s.cd.save) (s.shown_line m n) (State.setSave_eq _ q), ?_⟩
  rw [State.setSave_eq, (s.drawn_line m n).2]
  cases q <;> rfl

end

section

variable {s t : State} {seen seen' : Prop}

theorem State.Drawn.congr (h : s.Drawn t seen) (hs : seen ↔ seen') : s.Drawn t seen' := by rwa [← propext hs]

end

theorem ClipDiv.is2d_savePoint (c : ClipDiv) (n : Tuple) : (c.savePoint n).is2d = n.is2d := by
  cases n <;> rfl

/-- The line from SAVE to the new point. -/
theorem ClipDiv.sees_save (c : ClipDiv) (q : Tuple) :
    c.sees (c.savePoint (c.newTuple q)).is2d (cdPoint (c.savePoint (c.newTuple q))) (cdPoint (c.newTuple q)) ↔
      c.sees q.is2d (c.oldPoint q.is2d) (c.newPoint q) := by
  rw [c.is2d_savePoint, c.cdPoint_savePoint, c.cdPoint_newTuple, c.is2d_newTuple]

/-- The point that the line of a command starts from: a dot is a line of length zero. -/
def ClipDiv.lineStart (c : ClipDiv) (op : DrawOp) (q : Tuple) : CdPoint := if op = .dot then c.newPoint q else c.oldPoint q.is2d

/-- Each command but a box shows one line, or a point, and changes SAVE and the counts at most. -/
theorem State.drawn_command (s : State) (q : Tuple) {op : DrawOp} (hop : op ≠ .box) : ∃ t save hitang, t = s.cdDraw true op q ∧
    s.Drawn t (op ≠ .setPoint ∧ s.cd.sees q.is2d (s.cd.lineStart op q) (s.cd.newPoint q)) ∧
    t.cd = { s.cd with save := save, hitang := hitang } ∧
    save = (if op = .drawFrom then s.cd.save else s.cd.saved (s.cd.newTuple q)) ∧ (op = .setPoint → hitang = s.cd.hitang) := by
  have hsees := s.cd.sees_save q
  cases op
  case setPoint =>
    obtain ⟨hdrawn, hcd⟩ := s.drawn_setPointOp (s.cd.newTuple q)
    exact ⟨_, _, _, rfl, hdrawn.congr (by simp), hcd, rfl, fun _ => rfl⟩
  case drawTo =>
    obtain ⟨hdrawn, hcd⟩ := s.drawn_line_setSave (s.cd.savePoint (s.cd.newTuple q)) (s.cd.newTuple q) (s.cd.newTuple q)
    exact ⟨_, _, _, rfl, hdrawn.congr (hsees.trans ⟨fun h => ⟨nofun, h⟩, And.right⟩), hcd, rfl, nofun⟩
  case drawFrom =>
    obtain ⟨hdrawn, hcd⟩ := s.drawn_line (s.cd.newTuple q) (s.cd.savePoint (s.cd.newTuple q))
    rw [s.cd.sees_comm, ← s.cd.is2d_savePoint, hsees] at hdrawn
    exact ⟨_, _, _, rfl, hdrawn.congr ⟨fun h => ⟨nofun, h⟩, And.right⟩, hcd, rfl, nofun⟩
  case dot =>
    obtain ⟨hdrawn, hcd⟩ := s.drawn_line_setSave (s.cd.newTuple q) (s.cd.newTuple q) (s.cd.newTuple q)
    rw [s.cd.is2d_newTuple, s.cd.cdPoint_newTuple] at hdrawn
    exact ⟨_, _, _, rfl, hdrawn.congr ⟨fun h => ⟨nofun, h⟩, And.right⟩, hcd, rfl, nofun⟩
  case box => exact absurd rfl hop

/-- A box shows nothing. -/
theorem State.drawn_boxOp (s : State) (m n : Tuple) : s.Drawn (s.boxOp m n) False ∧
    (s.boxOp m n) = { s with cd := { s.cd with wind := (s.boxOp m n).cd.wind, view := (s.boxOp m n).cd.view },
                             freeIx := (s.boxOp m n).freeIx } :=
  ⟨State.Shown.drawn (s := s) (save := s.cd.save) (hitang := s.cd.hitang) (t := s.useFree 9) ((State.Shown.refl s).useFree 9) rfl, rfl⟩

/-- Settles O57: each command shows one line, a point or nothing, and changes SAVE, the counts or the two rectangles. -/
theorem drawingMovesSaveAndSetsHit : Obligations.DrawingMovesSaveAndSetsHit := by
  intro s t op form q nov dim a b ht hb ha seen hseen
  replace ht : t = s.cdDraw true op q := ht.trans State.apply_divider
  by_cases hbox : op = .box
  · subst hbox
    replace ht : t = s.boxOp (s.cd.savePoint (s.cd.newTuple q)) (s.cd.newTuple q) := ht
    obtain ⟨hdrawn, hframe⟩ := s.drawn_boxOp (s.cd.savePoint (s.cd.newTuple q)) (s.cd.newTuple q)
    rw [← ht] at hdrawn hframe
    have hunseen : ¬ seen := fun h => (hseen.mp h).2.1 rfl
    replace hdrawn := hdrawn.congr (iff_of_false id hunseen)
    have hcd : t.cd = { s.cd with wind := t.cd.wind, view := t.cd.view } := (congrArg State.cd hframe :)
    have hicr : t.icr = s.icr := (congrArg State.icr hframe :)
    have hraised : t.raised = s.raised := (congrArg State.raised hframe :)
    refine ⟨?_, (congrArg ClipDiv.save hcd).trans (if_pos (.inr rfl)).symm, fun _ => (congrArg ClipDiv.hitang hcd :), fun h => absurd rfl h,
      hdrawn.hit, hdrawn.dir, hdrawn.frame, fun _ => ⟨?_, fun k _ => by simp [hicr, hunseen], by simp [hraised, hunseen]⟩⟩
    · generalize t.cd = c at hcd ⊢
      rw [hcd]
    · rw [hframe]
  · obtain ⟨_, save, hitang, rfl, hdrawn, hcd, hsave, hcounts⟩ := s.drawn_command q hbox
    rw [← ht] at hdrawn hcd
    have hseen' : seen ↔ op ≠ .setPoint ∧ s.cd.sees q.is2d (s.cd.lineStart op q) (s.cd.newPoint q) := by
      rw [hseen, ClipDiv.lineStart, ← hb, ← ha]
      exact ⟨fun h => ⟨h.1, h.2.2⟩, fun h => ⟨h.1, hbox, h.2⟩⟩
    replace hdrawn := hdrawn.congr hseen'.symm
    refine ⟨?_, ?_, fun h => ?_, fun _ => ⟨?_, ?_⟩, hdrawn.hit, hdrawn.dir, hdrawn.frame, fun h => hdrawn.silent (h.resolve_right hbox)⟩
    · rw [hcd]
    · rw [hcd, hsave, s.cd.saved_newTuple, ← hb]
      simp only [hbox, or_false]
    · rw [hcd, hcounts (h.resolve_right hbox)]
    · rw [hcd]
    · rw [hcd]

end Sys2Proof.Machine
end

section
/-!
What a line that lies wholly in view and a set point send to memory and to the scope (R553 to R557, R580 to R582), under the reference
arithmetic.
-/

namespace Sys2Proof.Machine

/-! ### A line wholly in view (R553, R554) -/

/-- The whole of a segment. -/
def Span.whole : Span := { ln := 0, ld := 1, hn := 1, hd := 1 }

theorem clipSpan_whole {fs : List (Int × Int)} (h : ∀ f ∈ fs, 0 ≤ f.1 ∧ 0 ≤ f.2) : clipSpan fs = some Span.whole := by
  have hfold : fs.foldl (fun acc f => acc.bind (Span.cut f.1 f.2)) (some Span.whole) = some Span.whole := by
    induction fs with
    | nil => rfl
    | cons f fs ih =>
      obtain ⟨h0, h1⟩ := h f List.mem_cons_self
      rw [List.foldl_cons, Option.bind_some, Span.cut, if_pos h0, if_pos h1]
      exact ih fun g hg => h g (List.mem_cons_of_mem f hg)
  rw [clipSpan]
  exact (congrArg (Option.bind · _) hfold).trans rfl

theorem visible2d_whole {c : ClipDiv} {p q : CdPoint} (hp : c.inView true p) (hq : c.inView true q) :
    visible2d c.wind p q = some Span.whole := by
  obtain ⟨hp0, hp1, hp2, hp3⟩ := hp
  obtain ⟨hq0, hq1, hq2, hq3⟩ := hq
  have hforward : ¬ backward c.wind = true := by
    simp only [backward, Bool.or_eq_true, decide_eq_true_iff]
    omega
  rw [visible2d, if_neg hforward]
  refine clipSpan_whole ?_
  simp only [List.forall_mem_cons]
  exact ⟨by omega, by omega, by omega, by omega, nofun⟩

theorem clip3d_whole {c : ClipDiv} {p q : CdPoint} (hp : c.inView false p) (hq : c.inView false q) : clip3d p q = some Span.whole := by
  obtain ⟨hp0, hp1⟩ := hp
  obtain ⟨hq0, hq1⟩ := hq
  rw [abs_le] at hp0 hp1 hq0 hq1
  refine clipSpan_whole ?_
  simp only [List.forall_mem_cons]
  exact ⟨by omega, by omega, by omega, by omega, nofun⟩

/-- What lies before the eye does not lie in the negative pyramid. -/
theorem clip3dNegative_none {c : ClipDiv} {p q : CdPoint} (hp : c.inView false p) (hq : c.inView false q) (hpz : p.zx ≠ 0)
    (hqz : q.zx ≠ 0) : clip3dNegative p q = none := by
  rw [← Option.not_isSome_iff_eq_none, isSome_clip3dNegative]
  rintro ⟨n, d, h0, hnd, hd, hx, -⟩
  have hp0 : 0 < p.zx := lt_of_le_of_ne ((abs_nonneg _).trans hp.1) hpz.symm
  have hq0 : 0 < q.zx := lt_of_le_of_ne ((abs_nonneg _).trans hq.1) hqz.symm
  have hdepth : 0 < p.zx * (d - n) + q.zx * n := by
    obtain rfl | hn := h0.eq_or_lt
    · simpa using mul_pos hp0 hd
    · exact add_pos_of_nonneg_of_pos (mul_nonneg hp0.le (sub_nonneg.mpr hnd)) (mul_pos hq0 hn)
  have habs := (abs_nonneg _).trans hx
  omega

/-- A line wholly in view is one visible part. -/
theorem State.line_whole (s : State) {m n : Tuple} {d : Bool} (hm : m.is2d = d) (hp : s.cd.inView d (cdPoint m))
    (hq : s.cd.inView d (cdPoint n)) (hpm : s.cd.canMap d (cdPoint m)) (hqm : s.cd.canMap d (cdPoint n)) :
    ∃ x : State, x = { s with cd := { s.cd with hitang := x.cd.hitang }, freeIx := x.freeIx } ∧
      s.line m n = (x.visiblePart d (cdPoint m) (cdPoint n) Span.whole).useFree 32 := by
  subst hm
  cases m with
  | two x y =>
    refine ⟨s.countsUpdate.useFree 2, rfl, ?_⟩
    exact congrArg ((s.countsUpdate.useFree 2).partIfVisible true _ _) (visible2d_whole hp hq)
  | four x y z w =>
    have hpos := clip3d_whole hp hq
    have hneg : (if s.cd.cdir.curve then clip3dNegative (cdPoint (.four x y z w)) (cdPoint n) else none) = none := by
      rw [clip3dNegative_none hp hq hpm.1 hqm.1, ite_self]
    have hline : s.line (.four x y z w) n = (s.countsUpdate.useFree 2).line3d _ _ _ _ := rfl
    rw [hline, hpos, hneg, State.line3d]
    cases hmef : (s.countsUpdate.useFree 2).cd.cdir.mef with
    | true => exact ⟨(s.countsUpdate.useFree 2).useFree 1, rfl, rfl⟩
    | false => exact ⟨s.countsUpdate.useFree 2, rfl, rfl⟩

/-! ### Ends and maps under the reference arithmetic (R553, R554, R560) -/

section

variable {s : State} (ha : s.params.arith = .reference)

include ha

theorem State.rounded_reference (k : Nat) (n d : Int) : s.rounded k n d = Int.fdiv n d := by
  rw [State.rounded, ha]

theorem State.lerp_start (k : Nat) (a b : Int) : s.lerp k a b 0 1 = a := by
  rw [State.lerp, State.rounded_reference ha, mul_zero, Int.zero_fdiv, add_zero]

theorem State.lerp_end (k : Nat) (a b : Int) : s.lerp k a b 1 1 = b := by
  rw [State.lerp, State.rounded_reference ha, mul_one, Int.fdiv_one, add_sub_cancel]

theorem State.spanPoint_start (k : Nat) (p q : CdPoint) : s.spanPoint k p q 0 1 = p := by
  simp only [State.spanPoint, State.lerp_start ha]

theorem State.spanPoint_end (k : Nat) (p q : CdPoint) : s.spanPoint k p q 1 1 = q := by
  simp only [State.spanPoint, State.lerp_end ha]

/-- A point as it is output: mapped, with its Z. -/
theorem State.mapPoint_reference {d : Bool} {p : CdPoint} (hp : s.cd.canMap d p) (k : Nat) :
    s.mapPoint d k p = ⟨(s.cd.mapped d p).1, (s.cd.mapped d p).2, BitVec.ofInt 24 p.zx⟩ := by
  cases d with
  | true =>
    obtain ⟨hx, hy⟩ := hp
    simp only [State.mapPoint, if_pos, State.mapAxis_reference ha (fun h => hx (congrArg BitVec.toInt h)),
      State.mapAxis_reference ha (fun h => hy (congrArg BitVec.toInt h))]
    rfl
  | false =>
    obtain ⟨hx, hy⟩ := hp
    simp only [State.mapPoint, State.mapRatio, if_neg hx, if_neg hy, State.rounded_reference ha]
    rfl

theorem State.cdMemOut_reference (d : Bool) (e p : Point3) : s.cdMemOut d e p = s.outputWords (s.memoryGroups d e p) := by
  have hformat (ws : List Word) : s.memoryFormat ws = ws := by rw [State.memoryFormat, ha]
  rw [State.cdMemOut, hformat]
  split
  next => rfl
  next h =>
    obtain ⟨⟨hs, hp⟩, hn⟩ : (s.cd.cdir.stom = false ∧ s.cd.cdir.ptom = false) ∧ s.cd.cdir.ntom = false := by simpa using h
    rw [State.memoryGroups, hs, hp, hn]
    rfl

end

end Sys2Proof.Machine
end

section
/-!
The output of a visible line and of a set point (R553 to R557, R563, R580 to R582), under the reference arithmetic.
-/

namespace Sys2Proof.Machine

/-! ### Output in a state that differs in the units' own registers -/

/-- `x` is `s` but for the registers of the Clipping Divider, HIT, the scope and the counter of free values. -/
def State.BesideOutput (s x : State) : Prop := x = { s with cd := x.cd, dir := x.dir, scope := x.scope, freeIx := x.freeIx }

/-- `t` comes of `s` by sending `ws` to memory, and a line to the scope if `line`. -/
structure State.Sent (s t : State) (ws : List Word) (line : Prop) : Prop where
  frame : t = { s.outputWords ws with cd := t.cd, dir := t.dir, scope := t.scope, freeIx := t.freeIx, icr := t.icr, raised := t.raised }
  icr : ∀ k, bitAt t.icr k = true ↔ bitAt (s.outputWords ws).icr k = true ∨
    (k = 6 ∧ line ∧ s.cd.cdir.stos = true ∧ s.cd.violation = true)
  raised : t.raised = true ↔ (s.outputWords ws).raised = true ∨ (line ∧ s.cd.cdir.stos = true ∧ s.cd.violation = true)

section

variable {s x t u : State} {ws : List Word} {line : Prop}

theorem State.BesideOutput.outputWords (h : s.BesideOutput x) (ws : List Word) :
    x.outputWords ws = { s.outputWords ws with cd := x.cd, dir := x.dir, scope := x.scope, freeIx := x.freeIx } := by
  have hx : x.outputWords ws = x.withOutput (s.outputWords ws) := by
    have hsame := State.SameTranslation.outputWords (x := x) (o := s) (by rw [h]; exact ⟨rfl, rfl, rfl, rfl⟩) ws
    rw [← hsame]
    refine congrArg (State.outputWords · ws) ?_
    rw [h]
    rfl
  rw [hx, s.outputWords_frame ws, h]
  rfl

/-- Words sent, nothing raised. -/
theorem State.BesideOutput.sent (h : s.BesideOutput x)
    (ht : t = { x.outputWords ws with cd := t.cd, dir := t.dir, scope := t.scope, freeIx := t.freeIx }) : s.Sent t ws False := by
  rw [h.outputWords] at ht
  have hicr : t.icr = (s.outputWords ws).icr := (congrArg State.icr ht :)
  have hraised : t.raised = (s.outputWords ws).raised := (congrArg State.raised ht :)
  refine ⟨?_, fun k => by simp [hicr], by simp [hraised]⟩
  rw [ht]

/-- The scope violation of a line, after its words. -/
theorem State.BesideOutput.sent_raiseIf (h : s.BesideOutput x) (ht : t = { (x.outputWords ws).raiseIf
      (s.cd.cdir.stos && s.cd.violation) .scopeViolation with cd := t.cd, dir := t.dir, scope := t.scope, freeIx := t.freeIx }) :
    s.Sent t ws True := by
  have hicr : t.icr = ((x.outputWords ws).raiseIf (s.cd.cdir.stos && s.cd.violation) .scopeViolation).icr := (congrArg State.icr ht :)
  have hraised : t.raised = ((x.outputWords ws).raiseIf (s.cd.cdir.stos && s.cd.violation) .scopeViolation).raised :=
    (congrArg State.raised ht :)
  rw [State.raiseIf_frame _ _ (by decide), h.outputWords] at ht
  refine ⟨?_, fun k => ?_, ?_⟩
  · rw [ht]
  · rw [hicr, State.bitAt_raiseIf_icr, h.outputWords, Bool.or_eq_true, Bool.and_eq_true, Bool.and_eq_true, decide_eq_true_iff]
    exact or_congr_right ⟨fun ⟨hv, hk⟩ => ⟨hk, trivial, hv⟩, fun ⟨hk, _, hv⟩ => ⟨hv, hk⟩⟩
  · rw [hraised, State.raiseIf_raised, h.outputWords, Bool.or_eq_true, Bool.and_eq_true, or_comm, true_and]

/-- The units' own registers may change afterwards. -/
theorem State.Sent.trans (h : s.Sent t ws line) (hu : t.BesideOutput u) : s.Sent u ws line := by
  have hicr : u.icr = t.icr := (congrArg State.icr hu :)
  have hraised : u.raised = t.raised := (congrArg State.raised hu :)
  refine ⟨?_, fun k => by rw [hicr]; exact h.icr k, by rw [hraised]; exact h.raised⟩
  rw [hu, h.frame]

end

/-! ### Commands to the scope (R553, R555, R581) -/

section

variable {s : State} {d : Bool} (hz : d = false ∨ s.cd.cdir.ztos = false)

include hz

/-- A command at a point whose Z is that of `p`. -/
theorem State.emit_scope (kind : EmitKind) (k : Nat) (x y : Word) {e : Point3} {p : CdPoint} (he : e.z = BitVec.ofInt 24 p.zx) :
    (s.emit kind x y (s.intensityAt d k e)).scope = s.cd.command kind x y p :: s.scope := by
  have hint : s.intensityAt d k e = if s.cd.cdir.ztos then BitVec.ofInt 24 p.zx else s.cd.intensity := by
    rw [State.intensityAt, he]
    obtain rfl | hoff := hz
    · rfl
    · rw [hoff]
      rfl
  rw [hint]
  rfl

theorem State.emitFrom_scope {e0 e1 : Point3} {p0 p1 : CdPoint} (h0 : e0.z = BitVec.ofInt 24 p0.zx) (h1 : e1.z = BitVec.ofInt 24 p1.zx) :
    (s.emitFrom d e0 e1).scope = s.cd.command .draw e1.x e1.y p1 ::
      (if s.beamAt e0.x e0.y then s.scope else s.cd.command .move e0.x e0.y p0 :: s.scope) := by
  unfold State.emitFrom
  dsimp only
  split
  · exact State.emit_scope hz .draw 2 e1.x e1.y h1
  · rw [← State.emit_scope hz .move 1 e0.x e0.y h0]
    exact State.emit_scope (s := s.emit .move e0.x e0.y (s.intensityAt d 1 e0)) hz .draw 2 e1.x e1.y h1

theorem State.showPart_scope {e0 e1 page : Point3} {p0 p1 : CdPoint} (h0 : e0.z = BitVec.ofInt 24 p0.zx)
    (h1 : e1.z = BitVec.ofInt 24 p1.zx) (hs : s.cd.cdir.stos = true) :
    (s.showPart d e0 e1 page).scope = s.cd.command .draw e1.x e1.y p1 ::
      (if s.beamAt e0.x e0.y then s.scope else s.cd.command .move e0.x e0.y p0 :: s.scope) := by
  have hout := s.setHit.cdMemOut_frame d e1 page
  have hcd : (s.setHit.cdMemOut d e1 page).cd = s.cd := (congrArg State.cd hout :)
  unfold State.showPart
  dsimp only
  rw [hcd, if_pos hs, State.emitLine_eq, hcd]
  generalize s.setHit.cdMemOut d e1 page = o at hout
  generalize hv : o.raiseIf s.cd.violation .scopeViolation = v
  rw [o.raiseIf_frame _ (by decide), hout] at hv
  have hvcd : v.cd = s.cd := (congrArg State.cd hv :).symm
  have hvscope : v.scope = s.scope := (congrArg State.scope hv :).symm
  rw [State.emitFrom_scope (s := v) (by rwa [hvcd]) h0 h1, hvcd, State.beamAt, hvscope]
  rfl

end

theorem State.showPart_scope_off {s : State} (hs : s.cd.cdir.stos = false) (d : Bool) (e0 e1 page : Point3) :
    (s.showPart d e0 e1 page).scope = s.scope := by
  have hout := s.setHit.cdMemOut_frame d e1 page
  have hcd : (s.setHit.cdMemOut d e1 page).cd = s.cd := (congrArg State.cd hout :)
  unfold State.showPart
  dsimp only
  rw [hcd, if_neg (by rw [hs]; decide)]
  exact (congrArg State.scope hout :)

/-! ### A line, and a set point -/

/-- The words of a point sent to memory, by STOM, PTOM and NTOM (R555). -/
def ClipDiv.wordsOf (c : ClipDiv) (d : Bool) (m : Word × Word) (p : CdPoint) : List Word :=
  (if c.cdir.stom then groupOf d m.1 m.2 p else []) ++
    (if c.cdir.ptom then groupOf d (BitVec.ofInt 24 p.x) (BitVec.ofInt 24 p.y) p else []) ++
    (if c.cdir.ntom then [c.name.1, c.name.2] else [])

theorem words_point3 (d : Bool) (x y : Word) (p : CdPoint) :
    Point3.words d ⟨x, y, BitVec.ofInt 24 p.zx⟩ = groupOf d x y p := by
  cases d <;> rfl

theorem words_pagePoint (d : Bool) (p : CdPoint) : (pagePoint p).words d = groupOf d (BitVec.ofInt 24 p.x) (BitVec.ofInt 24 p.y) p :=
  words_point3 d ..

theorem State.memoryGroups_eq (s : State) (d : Bool) (m : Word × Word) (p : CdPoint) :
    s.memoryGroups d ⟨m.1, m.2, BitVec.ofInt 24 p.zx⟩ (pagePoint p) = s.cd.wordsOf d m p := by
  rw [State.memoryGroups, words_point3, words_pagePoint]
  rfl

section

variable {s x : State} {d : Bool} {p q : CdPoint}

/-- A line wholly in view, not in Minimum Effort Mode, is shown by the maps of its ends. -/
theorem State.visiblePart_whole (ha : s.params.arith = .reference) (hp : s.cd.canMap d p) (hq : s.cd.canMap d q)
    (hmef : s.cd.cdir.mef = false) : s.visiblePart d p q Span.whole =
      s.showPart d ⟨(s.cd.mapped d p).1, (s.cd.mapped d p).2, BitVec.ofInt 24 p.zx⟩
        ⟨(s.cd.mapped d q).1, (s.cd.mapped d q).2, BitVec.ofInt 24 q.zx⟩ (pagePoint q) := by
  rw [State.visiblePart_eq, State.partEnd, State.partEnd, hmef]
  simp only [Span.whole, Bool.false_eq_true, if_false, State.spanPoint_start ha, State.spanPoint_end ha, State.mapPoint_reference ha hp,
    State.mapPoint_reference ha hq]

/-- What a visible part sends. -/
theorem State.sent_showPart (ha : s.params.arith = .reference) (hx : s.BesideOutput x) (hcd : x.cd = { s.cd with hitang := x.cd.hitang })
    (m : Word × Word) (e : Point3) :
    s.Sent (x.showPart d e ⟨m.1, m.2, BitVec.ofInt 24 q.zx⟩ (pagePoint q)) (s.cd.wordsOf d m q) True := by
  have hhit : s.BesideOutput x.setHit := by
    rw [State.BesideOutput, hx]
    rfl
  have hframe := x.showPart_frame d e ⟨m.1, m.2, BitVec.ofInt 24 q.zx⟩ (pagePoint q)
  have hax : x.setHit.params.arith = .reference := by
    rw [hhit]
    exact ha
  have hwords : x.setHit.cd.wordsOf d m q = s.cd.wordsOf d m q := (congrArg (ClipDiv.wordsOf · d m q) hcd :)
  rw [State.cdMemOut_reference hax, State.memoryGroups_eq, hwords, show x.cd.cdir = s.cd.cdir from (congrArg ClipDiv.cdir hcd :),
    show x.cd.violation = s.cd.violation from (congrArg ClipDiv.violation hcd :)] at hframe
  refine hhit.sent_raiseIf ?_
  generalize x.showPart d e ⟨m.1, m.2, BitVec.ofInt 24 q.zx⟩ (pagePoint q) = t at hframe ⊢
  rw [hframe]

/-- What a set point sends. -/
theorem State.sent_placePoint (ha : s.params.arith = .reference) (hx : s.BesideOutput x) (hcd : x.cd = { s.cd with save := x.cd.save })
    (m : Word × Word) :
    s.Sent (x.placePoint d ⟨m.1, m.2, BitVec.ofInt 24 q.zx⟩ (pagePoint q)) (s.cd.wordsOf d m q) False := by
  have hax : x.params.arith = .reference := by
    rw [hx]
    exact ha
  have hwords : x.cd.wordsOf d m q = s.cd.wordsOf d m q := (congrArg (ClipDiv.wordsOf · d m q) hcd :)
  refine hx.sent ?_
  unfold State.placePoint
  rw [State.cdMemOut_reference hax, State.memoryGroups_eq, hwords]
  rfl

theorem State.placePoint_scope (hz : d = false ∨ s.cd.cdir.ztos = false) (scaled : Point3) :
    (s.placePoint d scaled (pagePoint q)).scope =
      s.cd.command .move (BitVec.ofInt 24 q.x) (BitVec.ofInt 24 q.y) q :: s.scope := by
  have hout := s.cdMemOut_frame d scaled (pagePoint q)
  generalize ho : s.cdMemOut d scaled (pagePoint q) = o at hout
  have hcd : o.cd = s.cd := (congrArg State.cd hout :)
  have hscope : o.scope = s.scope := (congrArg State.scope hout :)
  unfold State.placePoint
  rw [ho, ← hcd, ← hscope]
  exact State.emit_scope (s := o) (by rwa [hcd]) .move 6 _ _ rfl

end

end Sys2Proof.Machine
end

section
/-!
A drawing command that shows a line wholly in view, or a set point, under the reference arithmetic (R553 to R557, R580 to R582).
-/

namespace Sys2Proof.Machine

section

variable {s x : State} {d : Bool} {p q : CdPoint}

/-! ### Minimum Effort Mode (R557) -/

/-- The memory after a visible part. -/
theorem State.showPart_memory (ha : s.params.arith = .reference) (hx : s.BesideOutput x) (e0 e1 page : Point3) :
    (x.showPart d e0 e1 page).mem = (s.outputWords (x.memoryGroups d e1 page)).mem ∧
    (x.showPart d e0 e1 page).regs = (s.outputWords (x.memoryGroups d e1 page)).regs := by
  have hhit : s.BesideOutput x.setHit := by
    rw [State.BesideOutput, hx]
    rfl
  have hax : x.setHit.params.arith = .reference := by
    rw [hhit]
    exact ha
  have hframe := x.showPart_frame d e0 e1 page
  rw [State.cdMemOut_reference hax, State.raiseIf_frame _ _ (by decide), hhit.outputWords] at hframe
  exact ⟨(congrArg State.mem hframe :), (congrArg State.regs hframe :)⟩

/-- Some point of a whole segment. -/
theorem State.somePoint_whole (s : State) (p q : CdPoint) :
    s.somePoint p q Span.whole = s.spanPoint 12 p q ((s.free 0).toNat : Int) 16777215 := by
  simp [State.somePoint, Span.whole]

theorem State.memoryGroups_page (hs : s.cd.cdir.stom = false) (hp : s.cd.cdir.ptom = true) (hn : s.cd.cdir.ntom = false)
    (e page : Point3) : s.memoryGroups d e page = page.words d := by
  rw [State.memoryGroups, hs, hp, hn]
  exact (List.append_nil _).trans (List.nil_append _)

/-! ### The line of a command (R552) -/

end

/-- A command but a box and a set point draws one line, and changes no more than SAVE after it. -/
theorem State.line_of_command (s : State) (q : Tuple) {op : DrawOp} (hbox : op ≠ .box) (hset : op ≠ .setPoint) : ∃ m n c,
    m.is2d = q.is2d ∧ cdPoint m = (if op = .drawTo then s.cd.oldPoint q.is2d else s.cd.newPoint q) ∧
    cdPoint n = (if op = .drawFrom then s.cd.oldPoint q.is2d else s.cd.newPoint q) ∧
    s.cdDraw true op q = { s.line m n with cd := c } := by
  have hnew := s.cd.cdPoint_newTuple q
  have hold := s.cd.cdPoint_savePoint (s.cd.newTuple q)
  rw [s.cd.is2d_newTuple] at hold
  have hform := s.cd.is2d_savePoint (s.cd.newTuple q)
  rw [s.cd.is2d_newTuple] at hform
  cases op
  case setPoint => exact absurd rfl hset
  case drawTo =>
    exact ⟨s.cd.savePoint (s.cd.newTuple q), s.cd.newTuple q, _, hform, hold, hnew, State.setSave_eq _ (s.cd.newTuple q)⟩
  case drawFrom =>
    exact ⟨s.cd.newTuple q, s.cd.savePoint (s.cd.newTuple q), _, s.cd.is2d_newTuple q, hnew, hold, rfl⟩
  case dot => exact ⟨s.cd.newTuple q, s.cd.newTuple q, _, s.cd.is2d_newTuple q, hnew, hnew, State.setSave_eq _ (s.cd.newTuple q)⟩
  case box => exact absurd rfl hbox

/-- A command that shows a line wholly in view shows it as one visible part. -/
theorem State.command_whole {s : State} {q : Tuple} {op : DrawOp} {d : Bool} {e0 e1 : CdPoint} (hbox : op ≠ .box) (hset : op ≠ .setPoint)
    (hd : d = q.is2d) (he0 : e0 = (if op = .drawTo then s.cd.oldPoint d else s.cd.newPoint q))
    (he1 : e1 = (if op = .drawFrom then s.cd.oldPoint d else s.cd.newPoint q)) (hm0 : s.cd.canMap d e0) (hm1 : s.cd.canMap d e1)
    (hv0 : s.cd.inView d e0) (hv1 : s.cd.inView d e1) : ∃ (x : State) (c : ClipDiv) (k : Nat),
      x = { s with cd := { s.cd with hitang := x.cd.hitang }, freeIx := x.freeIx } ∧
      s.cdDraw true op q = { x.visiblePart d e0 e1 Span.whole with cd := c, freeIx := k } := by
  subst hd
  obtain ⟨m, n, c, hm, hp, hq, hcommand⟩ := s.line_of_command q hbox hset
  rw [← he0] at hp
  rw [← he1] at hq
  subst hp hq
  obtain ⟨x, hx, hline⟩ := s.line_whole hm hv0 hv1 hm0 hm1
  refine ⟨x, c, ((x.visiblePart q.is2d (cdPoint m) (cdPoint n) Span.whole).useFree 32).freeIx, hx, ?_⟩
  rw [hcommand, hline]
  rfl

section

variable {s x t : State} {d : Bool} {e0 e1 : CdPoint} {c : ClipDiv} {k : Nat}

/-- A line wholly in view, not in Minimum Effort Mode: what it sends to memory, and to the scope. -/
theorem State.sent_line (ha : s.params.arith = .reference) (hm0 : s.cd.canMap d e0) (hm1 : s.cd.canMap d e1)
    (hx : x = { s with cd := { s.cd with hitang := x.cd.hitang }, freeIx := x.freeIx })
    (ht : t = { x.visiblePart d e0 e1 Span.whole with cd := c, freeIx := k }) (hmef : s.cd.cdir.mef = false) :
    s.Sent t (s.cd.wordsOf d (s.cd.mapped d e1) e1) True ∧ (s.cd.cdir.stos = false → t.scope = s.scope) ∧
    (d = false ∨ s.cd.cdir.ztos = false → s.cd.cdir.stos = true → t.scope =
      s.cd.command .draw (s.cd.mapped d e1).1 (s.cd.mapped d e1).2 e1 ::
        (if s.beamAt (s.cd.mapped d e0).1 (s.cd.mapped d e0).2 then s.scope
          else s.cd.command .move (s.cd.mapped d e0).1 (s.cd.mapped d e0).2 e0 :: s.scope)) := by
  have hcd : x.cd = { s.cd with hitang := x.cd.hitang } := (congrArg State.cd hx :)
  have hscope : x.scope = s.scope := (congrArg State.scope hx :)
  have hbeside : s.BesideOutput x := by
    rw [State.BesideOutput, hx]
  have hmapped (e : CdPoint) : x.cd.mapped d e = s.cd.mapped d e := (congrArg (ClipDiv.mapped · d e) hcd :)
  have hcanMap (e : CdPoint) : x.cd.canMap d e = s.cd.canMap d e := (congrArg (ClipDiv.canMap · d e) hcd :)
  have hcdir : x.cd.cdir = s.cd.cdir := (congrArg ClipDiv.cdir hcd :)
  have hcommand (kind : EmitKind) (a b : Word) (e : CdPoint) : x.cd.command kind a b e = s.cd.command kind a b e :=
    (congrArg (ClipDiv.command · kind a b e) hcd :)
  have hax : x.params.arith = .reference := (congrArg (fun y : State => y.params.arith) hx).trans ha
  rw [State.visiblePart_whole hax (by rwa [hcanMap]) (by rwa [hcanMap]) (by rwa [hcdir]), hmapped, hmapped] at ht
  refine ⟨?_, fun hs => ?_, fun hz hs => ?_⟩
  · exact (State.sent_showPart ha hbeside hcd _ _).trans (by rw [State.BesideOutput, ht])
  · rw [ht, ← hscope]
    exact State.showPart_scope_off (by rwa [hcdir]) ..
  · rw [ht]
    refine (State.showPart_scope (by rwa [hcdir]) rfl rfl (by rwa [hcdir])).trans ?_
    rw [hcommand, hcommand, State.beamAt, hscope]
    rfl

/-- A line wholly in view in Minimum Effort Mode with the page point alone: the word of some point of it. -/
theorem State.sent_line_mef (ha : s.params.arith = .reference)
    (hx : x = { s with cd := { s.cd with hitang := x.cd.hitang }, freeIx := x.freeIx })
    (ht : t = { x.visiblePart d e0 e1 Span.whole with cd := c, freeIx := k }) (hmef : s.cd.cdir.mef = true)
    (hs : s.cd.cdir.stom = false) (hp : s.cd.cdir.ptom = true) (hn : s.cd.cdir.ntom = false) :
    ∃ (n m : Int) (p : CdPoint) (ws : List Word), 0 ≤ n ∧ n ≤ m ∧ 0 < m ∧
      p = ⟨e0.x + Int.fdiv ((e1.x - e0.x) * n) m, e0.y + Int.fdiv ((e1.y - e0.y) * n) m, e0.zx + Int.fdiv ((e1.zx - e0.zx) * n) m, 0⟩ ∧
      ws = groupOf d (BitVec.ofInt 24 p.x) (BitVec.ofInt 24 p.y) p ∧ t.mem = (s.outputWords ws).mem ∧ t.regs = (s.outputWords ws).regs := by
  have hcdir : x.cd.cdir = s.cd.cdir := (congrArg (fun y : State => y.cd.cdir) hx :)
  have hbeside : s.BesideOutput x := by
    rw [State.BesideOutput, hx]
  have hax : x.params.arith = .reference := (congrArg (fun y : State => y.params.arith) hx).trans ha
  have hlerp (j : Nat) (a b n d : Int) : x.lerp j a b n d = a + Int.fdiv ((b - a) * n) d := by
    rw [State.lerp, State.rounded_reference hax]
  have hfree : ((x.free 0).toNat : Int) ≤ 16777215 := by
    have := (x.free 0).isLt
    omega
  rw [State.visiblePart_eq, if_pos (by rwa [hcdir])] at ht
  obtain ⟨hmem, hregs⟩ := State.showPart_memory (d := d) ha hbeside (x.partEnd d e0 e1 4 16 22 Span.whole.ln Span.whole.ld)
    (x.partEnd d e0 e1 8 19 24 Span.whole.hn Span.whole.hd) (pagePoint (x.somePoint e0 e1 Span.whole))
  rw [State.memoryGroups_page (by rwa [hcdir]) (by rwa [hcdir]) (by rwa [hcdir]), words_pagePoint, State.somePoint_whole,
    State.spanPoint, hlerp, hlerp, hlerp] at hmem hregs
  rw [State.somePoint_whole, State.spanPoint, hlerp, hlerp, hlerp] at ht
  refine ⟨_, _, _, _, Int.natCast_nonneg _, hfree, by decide, rfl, rfl, ?_, ?_⟩
  · rw [ht]
    exact hmem
  · rw [ht]
    exact hregs

end

theorem State.Sent.congr {s t : State} {ws : List Word} {line line' : Prop} (h : s.Sent t ws line) (hl : line ↔ line') :
    s.Sent t ws line' := by
  rwa [← propext hl]

/-- A set point sends its own map and page point, and moves the beam there. -/
theorem State.sent_setPoint {s t : State} {q : Tuple} (ha : s.params.arith = .reference)
    (hm : s.cd.canMap q.is2d (s.cd.newPoint q)) (ht : t = s.cdDraw true .setPoint q) :
    s.Sent t (s.cd.wordsOf q.is2d (s.cd.mapped q.is2d (s.cd.newPoint q)) (s.cd.newPoint q)) False ∧
    (q.is2d = false ∨ s.cd.cdir.ztos = false → t.scope = s.cd.command .move (BitVec.ofInt 24 (s.cd.newPoint q).x)
      (BitVec.ofInt 24 (s.cd.newPoint q).y) (s.cd.newPoint q) :: s.scope) := by
  replace ht : t = s.setPointOp (s.cd.newTuple q) := ht
  rw [s.setPointOp_eq, s.cd.is2d_newTuple, s.cd.cdPoint_newTuple, State.mapPoint_reference ha hm, s.setSave_eq] at ht
  subst ht
  have hbeside : s.BesideOutput (s.withSave (s.cd.saved (s.cd.newTuple q)) s.cd.hitang) := rfl
  exact ⟨State.sent_placePoint ha hbeside rfl (s.cd.mapped q.is2d (s.cd.newPoint q)),
    fun hz => State.placePoint_scope (s := s.withSave (s.cd.saved (s.cd.newTuple q)) s.cd.hitang) hz _⟩

/-- Settles O59: the command's one visible part is the whole line; a set point is placed without being clipped. -/
theorem outputGroupsAndPerspective : Obligations.OutputGroupsAndPerspective := by
  intro s t op form q nov dim d e0 e1 ha ht hbox hd he0 he1 hm0 hm1 hview
  replace ht : t = s.cdDraw true op q := ht.trans State.apply_divider
  by_cases hset : op = .setPoint
  · subst hset hd
    obtain rfl : e1 = s.cd.newPoint q := he1
    refine ⟨?_, fun h => absurd rfl h⟩
    rintro m0 m1 ws - - rfl hws
    obtain rfl : ws = s.cd.wordsOf q.is2d (s.cd.mapped q.is2d (s.cd.newPoint q)) (s.cd.newPoint q) := hws
    obtain ⟨hsent, hscope⟩ := State.sent_setPoint ha hm1 ht
    replace hsent := hsent.congr (line' := DrawOp.setPoint ≠ .setPoint) (iff_of_false id (fun h => h rfl))
    exact ⟨hsent.frame, fun j _ => hsent.icr j, hsent.raised, fun h => absurd rfl h,
      fun hz => ⟨fun _ => hscope hz, fun h => absurd rfl h⟩⟩
  · obtain ⟨hv0, hv1⟩ := hview hset
    obtain ⟨x, c, k, hx, hcommand⟩ := State.command_whole hbox hset hd he0 he1 hm0 hm1 hv0 hv1
    rw [hcommand] at ht
    refine ⟨?_, fun _ hmef hs hp hn => State.sent_line_mef ha hx ht hmef hs hp hn⟩
    rintro m0 m1 ws hmef rfl rfl hws
    obtain rfl : ws = s.cd.wordsOf d (s.cd.mapped d e1) e1 := hws
    obtain ⟨hsent, hoff, hon⟩ := State.sent_line ha hm0 hm1 hx ht (hmef.resolve_right hset)
    replace hsent := hsent.congr (line' := op ≠ .setPoint) (iff_of_true trivial hset)
    exact ⟨hsent.frame, fun j _ => hsent.icr j, hsent.raised, fun _ => hoff,
      fun hz => ⟨fun h => absurd h hset, fun _ => hon hz⟩⟩

/-- Settles O58: the line lies wholly in the window, so it is the whole line of `outputGroupsAndPerspective`. -/
theorem visibleLinesReachTheScope : Obligations.VisibleLinesReachTheScope := by
  intro s t form nov dim v0 v1 a0 a1 b0 b1 ha ht hcdir hviolation ha0 ha1 hb0 hb1 hx hy hwx hwy fx fy hfx hfy
  have hstos : s.cd.cdir.stos = true := (congrArg Cdir.stos hcdir :)
  have hztos : s.cd.cdir.ztos = false := (congrArg Cdir.ztos hcdir :)
  have hmef : s.cd.cdir.mef = false := (congrArg Cdir.mef hcdir :)
  have hselfX : s.cd.cdir.selfX = false := (congrArg Cdir.selfX hcdir :)
  have hselfY : s.cd.cdir.selfY = false := (congrArg Cdir.selfY hcdir :)
  have hold : s.cd.oldPoint true = ⟨a0, a1, 0, 0⟩ := by rw [ha0, ha1]; rfl
  have hnew : s.cd.newPoint (.two v0 v1) = ⟨b0, b1, 0, 0⟩ := by
    rw [hb0, hb1, ClipDiv.newPoint, hselfX, hselfY]
    rfl
  have hmapped (x y : Int) : s.cd.mapped true ⟨x, y, 0, 0⟩ = (fx x, fy y) := by
    rw [hfx, hfy, ← Int.fdiv_eq_ediv_of_nonneg _ (by omega), ← Int.fdiv_eq_ediv_of_nonneg _ (by omega)]
    rfl
  have hmap (p : CdPoint) : s.cd.canMap true p := ⟨hwx.ne, hwy.ne⟩
  simp only [List.forall_mem_cons] at hx hy
  obtain ⟨⟨hax0, hax1⟩, ⟨hbx0, hbx1⟩, -⟩ := hx
  obtain ⟨⟨hay0, hay1⟩, ⟨hby0, hby1⟩, -⟩ := hy
  obtain ⟨houtput, -⟩ := outputGroupsAndPerspective s t .drawTo form (.two v0 v1) nov dim true ⟨a0, a1, 0, 0⟩ ⟨b0, b1, 0, 0⟩ ha ht nofun
    rfl hold.symm hnew.symm (hmap _) (hmap _) fun _ => ⟨⟨hax0, hax1, hay0, hay1⟩, ⟨hbx0, hbx1, hby0, hby1⟩⟩
  obtain ⟨-, -, -, -, hscope⟩ := houtput _ _ _ (.inl hmef) rfl rfl rfl
  obtain ⟨-, hline⟩ := hscope (.inr hztos)
  rw [hmapped, hmapped] at hline
  have hcommand (kind : EmitKind) (x y : Word) (p : CdPoint) : s.cd.command kind x y p =
      { kind := kind, x := x, y := y, z := s.cd.intensity, select := s.cd.select, permit := s.cd.permit,
        dashed := s.cd.cdir.dashed } := by
    rw [ClipDiv.command, hztos]
    rfl
  rw [hcommand, hcommand] at hline
  exact ⟨_, hline nofun hstos, rfl⟩

end Sys2Proof.Machine
end
